-- ==== Sys2Proof/Word.lean ====
section
/-!
DEFINITION. The word types of the SPD block, the closed enumerations of its codes, and the four shapes an encoded
operation word comes in (spec 30_encoding.md R110).
-/

namespace Sys2Proof

/-- A register, record word or timestamp: 64 bits (10_state.md R40, 30_encoding.md R114). -/
abbrev Word := BitVec 64

/-- A byte field of a record header or of a channel-index register. -/
abbrev Byte := BitVec 8

/-- The value of one sample entry: one bit per capture channel (10_state.md R21). -/
abbrev ChannelBits := BitVec 32

/-- One record: the header word and its body words, header first (30_encoding.md R114). -/
abbrev Record := List Word

/-- The word that holds a time or an index as `int64` (30_encoding.md R116). -/
def intWord (t : Int) : Word := BitVec.ofInt 64 t

/-- The word that holds a count, an index or a percentage as `uint64`. -/
def natWord (n : Nat) : Word := BitVec.ofNat 64 n

/-- The three protocol engines (00_scope.md R7; `ENG` codes 0, 1, 2 of 30_encoding.md R112). -/
inductive EngineId where
  | ow
  | jtag
  | uart
  deriving DecidableEq, Repr, Inhabited

/-- The 16 TAP controller states (43_jtag_tap.md R230); there is no ERROR state (R260). -/
inductive TapState where
  | testLogicReset
  | runTestIdle
  | selectDr
  | captureDr
  | shiftDr
  | exit1Dr
  | pauseDr
  | exit2Dr
  | updateDr
  | selectIr
  | captureIr
  | shiftIr
  | exit1Ir
  | pauseIr
  | exit2Ir
  | updateIr
  deriving DecidableEq, Repr, Inhabited

/-- The four outcomes of the pulse classifier (30_encoding.md R122). -/
inductive PulseClass where
  | unknown
  | one
  | zero
  | reset
  deriving DecidableEq, Repr, Inhabited

/-- An engine's phase (10_state.md R29, 30_encoding.md R123). -/
inductive RunState where
  | idle
  | running
  | done
  | failed
  | cancelled
  deriving DecidableEq, Repr, Inhabited

/-- A failure code (30_encoding.md R123). -/
inductive FailCode where
  | none
  | noIdle
  | cfgInvalid
  deriving DecidableEq, Repr, Inhabited

/-- The direction of an edge (40_edge_scanner.md R152). -/
inductive EdgeDir where
  | rising
  | falling
  deriving DecidableEq, Repr, Inhabited

/-- The 1-Wire bus modes (10_state.md R45). -/
inductive OwMode where
  | standard
  | overdrive
  deriving DecidableEq, Repr, Inhabited

/-- The lines of the UART engine in their fixed lane order (44_uart.md R291). -/
inductive LaneKind where
  | rx
  | tx
  | cts
  | rts
  | dtr
  | dsr
  | dcd
  | ri
  deriving DecidableEq, Repr, Inhabited

/-- The parity settings of a UART frame (10_state.md R47). -/
inductive Parity where
  | none
  | odd
  | even
  deriving DecidableEq, Repr, Inhabited

/-- The stop-bit settings of a UART frame (10_state.md R47). -/
inductive StopBits where
  | one
  | oneAndHalf
  | two
  deriving DecidableEq, Repr, Inhabited

/-- An encoded operation word in one of the four formats of 30_encoding.md R110. A command word is held with all 64
bits written to `CMD`, because bits 63:32 decide its legality (R125). -/
inductive OpWord where
  /-- format CMD: the value written to the `CMD` register -/
  | cmd (v : Word)
  /-- format REC: header word and body words -/
  | record (words : Record)
  /-- format TAP: the 5-bit row index -/
  | tap (row : BitVec 5)
  /-- format CLS: the 2-bit pulse class -/
  | cls (code : BitVec 2)
  deriving DecidableEq, Repr, Inhabited

end Sys2Proof
end

