-- ==== Sys2Proof/Machine/Registers.lean ====
section
/-!
DEFINITION. The plain data the block's registers are made of: sample entries, the timing profile, an exact rational, and per
engine its configuration registers, its working and latched registers, and its output side (10_state.md R20).
-/

namespace Sys2Proof.Machine

/-- One entry of the sample memory: timestamp (`int64`) and channel value (`uint32`) (10_state.md R21). -/
structure Sample where
  ts : Word
  val : ChannelBits
  deriving DecidableEq, Repr, Inhabited

/-- The sample memory: entry `i` is element `i`, and `N` is the length (10_state.md R21). -/
abbrev Memory := List Sample

/-- The timing window of one letter: `(min, max)` in nanoseconds (10_state.md R55: microseconds times 1000, an integer). -/
structure TimingWindow where
  min : Nat
  max : Nat
  deriving DecidableEq, Repr, Inhabited

/-- The nine windows `a b c d e g h i j` of a 1-Wire mode (41_timing_classifier.md R170). -/
structure Profile where
  a : TimingWindow
  b : TimingWindow
  c : TimingWindow
  d : TimingWindow
  e : TimingWindow
  g : TimingWindow
  h : TimingWindow
  i : TimingWindow
  j : TimingWindow
  deriving DecidableEq, Repr, Inhabited

/-- An exact rational, numerator over denominator: a pulse width in microseconds (41_timing_classifier.md R172) or a bit
cell in timestamp units (44_uart.md R295). -/
structure Frac where
  num : Int
  den : Nat
  deriving DecidableEq, Repr, Inhabited

/-- The status register of an engine: `STATE`, `CODE`, `CANCEL_PENDING` (10_state.md R49). -/
structure Status where
  state : RunState
  code : FailCode
  cancelPending : Bool
  deriving DecidableEq, Repr, Inhabited

/-- What an engine shows the host: status, progress and counter registers (10_state.md R49, R50), event stream and
result memory (20_memory.md R87). -/
structure EngineOut where
  status : Status
  progress : Word
  symcnt : Word
  errcnt : Word
  stream : List Record
  result : List Record
  deriving DecidableEq, Repr, Inhabited

/-- The 1-Wire configuration registers (10_state.md R43, R44, R45). -/
structure OwConfig where
  winS : Word
  winE : Word
  line : Word
  mode : Word
  deriving DecidableEq, Repr, Inhabited

/-- The JTAG configuration registers (10_state.md R43, R44). -/
structure JtConfig where
  winS : Word
  winE : Word
  tck : Word
  tms : Word
  tdi : Word
  tdo : Word
  deriving DecidableEq, Repr, Inhabited

/-- The UART configuration registers (10_state.md R43, R44, R47, R48). -/
structure UaConfig where
  winS : Word
  winE : Word
  rxd : Word
  txd : Word
  cts : Word
  rts : Word
  dtr : Word
  dsr : Word
  dcd : Word
  ri : Word
  frame : Word
  baud : Word
  deriving DecidableEq, Repr, Inhabited

/-- The latched configuration and working registers of the 1-Wire engine (10_state.md R25, 42_onewire.md R190), with
the temporaries `f` and `r` of an iteration (R194). -/
structure OwWork where
  winS : Nat
  winE : Nat
  line : Byte
  mode : OwMode
  mask : ChannelBits
  profile : Profile
  bitTicks : Nat
  resetTicks : Nat
  tStart : Int
  tEnd : Int
  cursor : Int
  bitCount : Nat
  byteValue : Byte
  byteStart : Option Int
  f : Int
  r : Int
  deriving DecidableEq, Repr, Inhabited

/-- The latched configuration and working registers of the JTAG engine (10_state.md R26). A bit-string is a list whose
head is its leftmost character, the most recently shifted bit. -/
structure JtWork where
  winS : Nat
  winE : Nat
  tck : Byte
  tms : Byte
  tdi : Option Byte
  tdo : Option Byte
  tStart : Int
  tEnd : Int
  current : TapState
  previous : TapState
  spanStart : Nat
  tdiAcc : List Bool
  tdoAcc : List Bool
  shiftFirst : Option Nat
  shiftLast : Option Nat
  idx : Nat
  deriving DecidableEq, Repr, Inhabited

/-- One configured line of the UART engine (44_uart.md R291). -/
structure Lane where
  kind : LaneKind
  chan : Byte
  deriving DecidableEq, Repr, Inhabited

/-- The latched configuration and working registers of the UART engine (10_state.md R27), with the temporaries `pbit`
(44_uart.md R299), `tLast` (R297) and the found event `evTime`, `evLevel` (R306). -/
structure UaWork where
  winS : Nat
  winE : Nat
  frame : Word
  baud : Word
  lanes : List Lane
  lane : Nat
  tStart : Int
  tEnd : Int
  cursor : Int
  t0 : Int
  cell : Frac
  value : Byte
  pbit : Bool
  pe : Bool
  fe : Bool
  tLast : Int
  evTime : Int
  evLevel : Bool
  deriving DecidableEq, Repr, Inhabited

/-- Which rule is the 1-Wire engine's next step: the targets of the "go to" of 42_onewire.md. -/
inductive OwPc where
  | idle
  | init
  | loop
  | scan
  | reset
  | zero
  | one
  | unknown
  | progress
  | done
  | cancelled
  deriving DecidableEq, Repr, Inhabited

/-- Which rule is the JTAG engine's next step: the targets of the "go to" and the sub-step order of 43_jtag_tap.md. -/
inductive JtPc where
  | idle
  | init
  | scan
  | step
  | clear
  | shift
  | update
  | span
  | progress
  | done
  | cancelled
  deriving DecidableEq, Repr, Inhabited

/-- Which rule is the UART engine's next step: the targets of the "go to" and the rule order of 44_uart.md. -/
inductive UaPc where
  | idle
  | lane
  | startBit
  | cell
  | fit
  | data
  | parity
  | stop
  | emit
  | resume
  | hs
  | hsEvent
  | progress
  | nextLane
  | done
  | cancelled
  deriving DecidableEq, Repr, Inhabited

end Sys2Proof.Machine
end

