-- ==== Sys2Proof/Machine/Classifier.lean ====
section
/-!
DEFINITION. The timing classifier (spec 41_timing_classifier.md): unit conversion, frame lengths, the pulse classes and the presence test. Bounds
are in nanoseconds and widths are exact rationals of microseconds, compared by cross-multiplication (70_reset_and_hazards.md R457).
-/

namespace Sys2Proof.Machine

/-- US (41_timing_classifier.md R172): the width of `dt` timestamp units in microseconds, exact. -/
def us (rate : Word) (dt : Int) : Frac := ⟨dt * 1000000, rate.toNat⟩

/-- TICKS (41_timing_classifier.md R172): `floor(u * SB_RATE / 1000000)` of any rational number `u` of microseconds. -/
def ticksOf (rate : Word) (u : Frac) : Int := u.num * rate.toNat / (u.den * 1000000)

/-- TICKS of a frame length, which is held in whole nanoseconds (41_timing_classifier.md R172 to R174). -/
def ticks (rate : Word) (ns : Nat) : Nat := (ticksOf rate ⟨ns, 1000⟩).toNat

/-- A bound in nanoseconds is at most a width in microseconds. -/
def Frac.atLeast (w : Frac) (ns : Nat) : Bool := decide ((ns : Int) * w.den ≤ w.num * 1000)

/-- A width in microseconds is at most a bound in nanoseconds. -/
def Frac.atMost (w : Frac) (ns : Nat) : Bool := decide (w.num * 1000 ≤ (ns : Int) * w.den)

/-- OW.BITFRAME in nanoseconds, a negative length taken as 0 (41_timing_classifier.md R173): natural subtraction stops at 0. -/
def bitFrame (p : Profile) : Nat := max (p.a.min + p.b.min) (p.c.min + p.d.min) - 1000

/-- OW.RESETFRAME in nanoseconds, a negative length taken as 0 (41_timing_classifier.md R174). -/
def resetFrame (p : Profile) : Nat := p.g.min + p.h.min + p.i.min + p.j.min - 1000

/-- OW.CLASSIFY (41_timing_classifier.md R175): the tests in the source's order, the first that holds wins. -/
def classify (p : Profile) (w : Frac) : PulseClass :=
  if w.atLeast p.h.min && w.atMost p.h.max then .reset
  else if w.atLeast (p.a.max + p.e.max) && w.atMost p.c.max then .zero
  else if w.atLeast p.a.min && !w.atLeast (p.a.max + p.e.max) then .one
  else .unknown

/-- OW.PRESENT (41_timing_classifier.md R181): the width is at most `iMax`. -/
def presentWidth (p : Profile) (w : Frac) : Bool := w.atMost p.i.max

end Sys2Proof.Machine
end

