-- ==== Sys2Proof/Config.lean ====
section
/-!
DEFINITION. What an implementation of the block fixes (00_scope.md R6) and the values the spec leaves open: constants
without a body, so that no proof can see what they are.
-/

namespace Sys2Proof.Config

open Sys2Proof.Machine

/-- The number of capture channels (00_scope.md R6). -/
def channels : Nat := 32

/-- The 1-Wire timing profiles `OW_PROFILE[mode]`: an OPEN parameter (41_timing_classifier.md R171, 93 U15), with the
five bounds that no rule reads (93 U1). Log 5. -/
opaque owProfile : OwMode → Profile

/-- Which of the engines that could step takes its step, when nothing outside fixes the order (20_memory.md R92,
93 U13): any value, for each count of `tick`. Log 6. -/
opaque arbiter : Nat → Nat

/-- The 1-Wire working and latched registers after a block reset (70_reset_and_hazards.md R440, 93 U2): any value, for each count of
`tick`. Log 4. -/
opaque owAfterReset : Nat → OwWork

/-- The JTAG working and latched registers after a block reset (70_reset_and_hazards.md R440, 93 U2): any value. Log 4. -/
opaque jtAfterReset : Nat → JtWork

/-- The UART working and latched registers after a block reset (70_reset_and_hazards.md R440, 93 U2): any value. Log 4. -/
opaque uaAfterReset : Nat → UaWork

/-- The LEN field of a record whose body has more words than 32 bits can count: the spec gives none (30_encoding.md R114).
Log 15. -/
opaque overlongLen : Nat → BitVec 32

end Sys2Proof.Config
end

