-- ==== Sys2Proof/Syntax.lean ====
section
/-!
DEFINITION. The abstract syntax of the block's encoded operations: one constructor for each row of
spec/opcode_table.json (30_encoding.md R111). The fields of a record constructor are exactly the header and body
fields that the row's mask leaves open; `Instr.wf` (WellFormed.lean) says which of their values the spec gives them.
-/

namespace Sys2Proof

inductive Instr where
  /-- `START.OW`, CMD 0x00000001 (46_host_commands.md R382) -/
  | startOw
  /-- `START.JTAG`, CMD 0x00000101 (46_host_commands.md R382) -/
  | startJtag
  /-- `START.UART`, CMD 0x00000201 (46_host_commands.md R382) -/
  | startUart
  /-- `CANCEL.OW`, CMD 0x00000002 (46_host_commands.md R387) -/
  | cancelOw
  /-- `CANCEL.JTAG`, CMD 0x00000102 (46_host_commands.md R387) -/
  | cancelJtag
  /-- `CANCEL.UART`, CMD 0x00000202 (46_host_commands.md R387) -/
  | cancelUart
  /-- `VALUE_AT`, CMD 0x00000003 (46_host_commands.md R389) -/
  | valueAt
  /-- `FIND_EDGE`, CMD 0x00000004 (46_host_commands.md R390) -/
  | findEdge
  /-- `RESET`, CMD 0x00000005 (46_host_commands.md R391) -/
  | reset
  /-- `CLEAR`, REC kind 0x01 (45_emitter.md R344) -/
  | clear (chan : Byte)
  /-- `PROGRESS`, REC kind 0x02 (45_emitter.md R347) -/
  | progress (percent : Byte)
  /-- `END`, REC kind 0x03: final state code, failure code, the two counters (45_emitter.md R349) -/
  | endRun (st code : Byte) (sym err : Word)
  /-- `OW_RESET`, REC kind 0x10 (45_emitter.md R350) -/
  | owReset (chan : Byte) (present : Bool) (start stop : Word)
  /-- `OW_BYTE`, REC kind 0x11 (45_emitter.md R351) -/
  | owByte (chan value : Byte) (start stop : Word)
  /-- `OW_BUSERROR`, REC kind 0x12 (45_emitter.md R352) -/
  | owBusError (chan : Byte) (start stop : Word)
  /-- `JT_STATE`, REC kind 0x20 (45_emitter.md R353) -/
  | jtState (chan : Byte) (state : TapState) (start stop : Word)
  /-- `JT_SHIFT.TDI`, REC kind 0x21, SUB 0; `body` is start, end, nbits and the bit words (45_emitter.md R354) -/
  | jtShiftTdi (chan : Byte) (body : List Word)
  /-- `JT_SHIFT.TDO`, REC kind 0x21, SUB 1; `body` as for TDI (45_emitter.md R354) -/
  | jtShiftTdo (chan : Byte) (body : List Word)
  /-- `UA_DATA.RX`, REC kind 0x30, DIR 0 (45_emitter.md R355) -/
  | uaDataRx (chan value : Byte) (pe fe : Bool) (start stop : Word)
  /-- `UA_DATA.TX`, REC kind 0x30, DIR 1 (45_emitter.md R355) -/
  | uaDataTx (chan value : Byte) (pe fe : Bool) (start stop : Word)
  /-- `UA_EVENT`, REC kind 0x31 (45_emitter.md R356) -/
  | uaEvent (chan : Byte) (label : BitVec 4) (start stop : Word)
  /-- `TAP.NEXT.TEST_LOGIC_RESET.0`, TAP row 0b00000 (43_jtag_tap.md R231) -/
  | tapTestLogicReset0
  /-- `TAP.NEXT.TEST_LOGIC_RESET.1`, TAP row 0b00001 (43_jtag_tap.md R231) -/
  | tapTestLogicReset1
  /-- `TAP.NEXT.RUN_TEST_IDLE.0`, TAP row 0b00010 (43_jtag_tap.md R232) -/
  | tapRunTestIdle0
  /-- `TAP.NEXT.RUN_TEST_IDLE.1`, TAP row 0b00011 (43_jtag_tap.md R232) -/
  | tapRunTestIdle1
  /-- `TAP.NEXT.SELECT_DR.0`, TAP row 0b00100 (43_jtag_tap.md R233) -/
  | tapSelectDr0
  /-- `TAP.NEXT.SELECT_DR.1`, TAP row 0b00101 (43_jtag_tap.md R233) -/
  | tapSelectDr1
  /-- `TAP.NEXT.CAPTURE_DR.0`, TAP row 0b00110 (43_jtag_tap.md R234) -/
  | tapCaptureDr0
  /-- `TAP.NEXT.CAPTURE_DR.1`, TAP row 0b00111 (43_jtag_tap.md R234) -/
  | tapCaptureDr1
  /-- `TAP.NEXT.SHIFT_DR.0`, TAP row 0b01000 (43_jtag_tap.md R235) -/
  | tapShiftDr0
  /-- `TAP.NEXT.SHIFT_DR.1`, TAP row 0b01001 (43_jtag_tap.md R235) -/
  | tapShiftDr1
  /-- `TAP.NEXT.EXIT1_DR.0`, TAP row 0b01010 (43_jtag_tap.md R236) -/
  | tapExit1Dr0
  /-- `TAP.NEXT.EXIT1_DR.1`, TAP row 0b01011 (43_jtag_tap.md R236) -/
  | tapExit1Dr1
  /-- `TAP.NEXT.PAUSE_DR.0`, TAP row 0b01100 (43_jtag_tap.md R237) -/
  | tapPauseDr0
  /-- `TAP.NEXT.PAUSE_DR.1`, TAP row 0b01101 (43_jtag_tap.md R237) -/
  | tapPauseDr1
  /-- `TAP.NEXT.EXIT2_DR.0`, TAP row 0b01110 (43_jtag_tap.md R238) -/
  | tapExit2Dr0
  /-- `TAP.NEXT.EXIT2_DR.1`, TAP row 0b01111 (43_jtag_tap.md R238) -/
  | tapExit2Dr1
  /-- `TAP.NEXT.UPDATE_DR.0`, TAP row 0b10000 (43_jtag_tap.md R239) -/
  | tapUpdateDr0
  /-- `TAP.NEXT.UPDATE_DR.1`, TAP row 0b10001 (43_jtag_tap.md R239) -/
  | tapUpdateDr1
  /-- `TAP.NEXT.SELECT_IR.0`, TAP row 0b10010 (43_jtag_tap.md R240) -/
  | tapSelectIr0
  /-- `TAP.NEXT.SELECT_IR.1`, TAP row 0b10011 (43_jtag_tap.md R240) -/
  | tapSelectIr1
  /-- `TAP.NEXT.CAPTURE_IR.0`, TAP row 0b10100 (43_jtag_tap.md R241) -/
  | tapCaptureIr0
  /-- `TAP.NEXT.CAPTURE_IR.1`, TAP row 0b10101 (43_jtag_tap.md R241) -/
  | tapCaptureIr1
  /-- `TAP.NEXT.SHIFT_IR.0`, TAP row 0b10110 (43_jtag_tap.md R242) -/
  | tapShiftIr0
  /-- `TAP.NEXT.SHIFT_IR.1`, TAP row 0b10111 (43_jtag_tap.md R242) -/
  | tapShiftIr1
  /-- `TAP.NEXT.EXIT1_IR.0`, TAP row 0b11000 (43_jtag_tap.md R243) -/
  | tapExit1Ir0
  /-- `TAP.NEXT.EXIT1_IR.1`, TAP row 0b11001 (43_jtag_tap.md R243) -/
  | tapExit1Ir1
  /-- `TAP.NEXT.PAUSE_IR.0`, TAP row 0b11010 (43_jtag_tap.md R244) -/
  | tapPauseIr0
  /-- `TAP.NEXT.PAUSE_IR.1`, TAP row 0b11011 (43_jtag_tap.md R244) -/
  | tapPauseIr1
  /-- `TAP.NEXT.EXIT2_IR.0`, TAP row 0b11100 (43_jtag_tap.md R245) -/
  | tapExit2Ir0
  /-- `TAP.NEXT.EXIT2_IR.1`, TAP row 0b11101 (43_jtag_tap.md R245) -/
  | tapExit2Ir1
  /-- `TAP.NEXT.UPDATE_IR.0`, TAP row 0b11110 (43_jtag_tap.md R246) -/
  | tapUpdateIr0
  /-- `TAP.NEXT.UPDATE_IR.1`, TAP row 0b11111 (43_jtag_tap.md R246) -/
  | tapUpdateIr1
  /-- `CLS.UNKNOWN`, CLS code 0 (41_timing_classifier.md R179) -/
  | clsUnknown
  /-- `CLS.ONE`, CLS code 1 (41_timing_classifier.md R178) -/
  | clsOne
  /-- `CLS.ZERO`, CLS code 2 (41_timing_classifier.md R177) -/
  | clsZero
  /-- `CLS.RESET`, CLS code 3 (41_timing_classifier.md R176) -/
  | clsReset
  deriving DecidableEq, Repr

end Sys2Proof
end

