-- ==== Sys2Proof/WellFormed.lean ====
section
/-!
DEFINITION. Which field values of an operation the spec gives it (30_encoding.md R116, R117, R124, R125). Command words, TAP
rows and class codes have no field, so they are always well formed.
-/

namespace Sys2Proof

/-- A channel index that names a channel: 0..31 (30_encoding.md R114). -/
def chanLegal (chan : Byte) : Bool := decide (chan.toNat < 32)

/-- A percentage: 0..100 (45_emitter.md R347). -/
def percentLegal (percent : Byte) : Bool := decide (percent.toNat ≤ 100)

/-- The final states an END record carries: 2 DONE, 3 FAILED, 4 CANCELLED (45_emitter.md R349). -/
def finalStateLegal (st : Byte) : Bool := st == 2#8 || st == 3#8 || st == 4#8

/-- The failure codes an END record carries: 0 NONE, 1 NO_IDLE (45_emitter.md R349). -/
def endCodeLegal (code : Byte) : Bool := code == 0#8 || code == 1#8

/-- A UART event label: 0..11 (30_encoding.md R124). -/
def labelLegal (label : BitVec 4) : Bool := decide (label.toNat ≤ 11)

/-- A sample index written as `int64` is non-negative (30_encoding.md R116). -/
def indexLegal (w : Word) : Bool := !w.msb

/-- The number of 64-bit words that hold `n` bits. -/
def bitWordCount (n : Nat) : Nat := (n + 63) / 64

/-- The unused high bits of the last bit word are zero: the bits above bit `n - 1` (30_encoding.md R117). -/
def paddingZero (n : Nat) (ws : List Word) : Bool :=
  n % 64 == 0 || decide ((ws.getLastD 0#64).toNat < 2 ^ (n % 64))

/-- The body of a JT_SHIFT record: start, end, `nbits ≥ 1`, and `ceil(nbits / 64)` bit words
(30_encoding.md R116, R117, 45_emitter.md R354). -/
def shiftBodyLegal (body : List Word) : Bool :=
  match body with
  | start :: stop :: nbits :: ws =>
      indexLegal start && indexLegal stop && nbits != 0#64
        && ws.length == bitWordCount nbits.toNat && paddingZero nbits.toNat ws
  | _ => false

/-- The field values the spec gives an operation. A CLEAR, an OW_*, a JT_* and a UA_* record name a channel; an
OW_BUSERROR and a UA_EVENT are points (30_encoding.md R116). -/
def Instr.wf (i : Instr) : Bool :=
  match i with
  | .clear chan => chanLegal chan
  | .progress percent => percentLegal percent
  | .endRun st code _ _ => finalStateLegal st && endCodeLegal code
  | .owReset chan _ _ _ => chanLegal chan
  | .owByte chan _ _ _ => chanLegal chan
  | .owBusError chan start stop => chanLegal chan && start == stop
  | .jtState chan _ start stop => chanLegal chan && indexLegal start && indexLegal stop
  | .jtShiftTdi chan body => chanLegal chan && shiftBodyLegal body
  | .jtShiftTdo chan body => chanLegal chan && shiftBodyLegal body
  | .uaDataRx chan _ _ _ _ _ => chanLegal chan
  | .uaDataTx chan _ _ _ _ _ => chanLegal chan
  | .uaEvent chan label start stop => chanLegal chan && labelLegal label && start == stop
  | .startOw | .startJtag | .startUart | .cancelOw | .cancelJtag | .cancelUart => true
  | .valueAt | .findEdge | .reset => true
  | .tapTestLogicReset0 | .tapTestLogicReset1 | .tapRunTestIdle0 | .tapRunTestIdle1 => true
  | .tapSelectDr0 | .tapSelectDr1 | .tapCaptureDr0 | .tapCaptureDr1 => true
  | .tapShiftDr0 | .tapShiftDr1 | .tapExit1Dr0 | .tapExit1Dr1 => true
  | .tapPauseDr0 | .tapPauseDr1 | .tapExit2Dr0 | .tapExit2Dr1 => true
  | .tapUpdateDr0 | .tapUpdateDr1 | .tapSelectIr0 | .tapSelectIr1 => true
  | .tapCaptureIr0 | .tapCaptureIr1 | .tapShiftIr0 | .tapShiftIr1 => true
  | .tapExit1Ir0 | .tapExit1Ir1 | .tapPauseIr0 | .tapPauseIr1 => true
  | .tapExit2Ir0 | .tapExit2Ir1 | .tapUpdateIr0 | .tapUpdateIr1 => true
  | .clsUnknown | .clsOne | .clsZero | .clsReset => true

end Sys2Proof
end

