-- ==== Sys2Proof/Decode.lean ====
section
/-!
DEFINITION. Encoding and decoding of the four formats of 30_encoding.md: command words (R112, R113), records (R114 to R117), TAP
row indices (R120, R121) and pulse classes (R122), with the byte order of a serialisation (20_memory.md R84) and the
host's numbering of a table row's bits.
-/

namespace Sys2Proof

/-- Why a word is no operation of the block (30_encoding.md R125). -/
inductive DecodeError where
  /-- CMD: a bit above bit 9 is set (bits 31:10 reserved, bits 63:32 must be zero) -/
  | reservedBits
  /-- CMD: `OP` is 0x00 or above 0x05 -/
  | operation
  /-- CMD: `ENG` is 3, or non-zero with VALUE_AT, FIND_EDGE or RESET -/
  | engine
  /-- REC: there is no header word -/
  | noHeader
  /-- REC: `LEN` is not the number of body words, or not the number the kind has -/
  | length
  /-- REC: a kind the block never emits -/
  | kind
  /-- REC: a header field the kind fixes holds another value -/
  | fixedField
  deriving DecidableEq, Repr

/-! ## Codes of the small enumerations -/

/-- The 4-bit code of a TAP state (30_encoding.md R120). -/
def TapState.code (t : TapState) : BitVec 4 :=
  match t with
  | .testLogicReset => 0#4
  | .runTestIdle => 1#4
  | .selectDr => 2#4
  | .captureDr => 3#4
  | .shiftDr => 4#4
  | .exit1Dr => 5#4
  | .pauseDr => 6#4
  | .exit2Dr => 7#4
  | .updateDr => 8#4
  | .selectIr => 9#4
  | .captureIr => 10#4
  | .shiftIr => 11#4
  | .exit1Ir => 12#4
  | .pauseIr => 13#4
  | .exit2Ir => 14#4
  | .updateIr => 15#4

/-- The TAP state of a 4-bit code: every code is a state (30_encoding.md R120). -/
def TapState.ofCode (c : BitVec 4) : TapState :=
  match c.toNat with
  | 0 => .testLogicReset
  | 1 => .runTestIdle
  | 2 => .selectDr
  | 3 => .captureDr
  | 4 => .shiftDr
  | 5 => .exit1Dr
  | 6 => .pauseDr
  | 7 => .exit2Dr
  | 8 => .updateDr
  | 9 => .selectIr
  | 10 => .captureIr
  | 11 => .shiftIr
  | 12 => .exit1Ir
  | 13 => .pauseIr
  | 14 => .exit2Ir
  | _ => .updateIr

/-- The 2-bit code of a pulse class (30_encoding.md R122). -/
def PulseClass.code (c : PulseClass) : BitVec 2 :=
  match c with
  | .unknown => 0#2
  | .one => 1#2
  | .zero => 2#2
  | .reset => 3#2

/-- The run state of a `STATE` code (30_encoding.md R123); codes 5 to 7 never occur. -/
def RunState.ofCode (st : Byte) : Option RunState :=
  match st.toNat with
  | 0 => some .idle
  | 1 => some .running
  | 2 => some .done
  | 3 => some .failed
  | 4 => some .cancelled
  | _ => none

/-- The `STATE` code of a run state (30_encoding.md R123). -/
def RunState.code (st : RunState) : Byte :=
  match st with
  | .idle => 0#8
  | .running => 1#8
  | .done => 2#8
  | .failed => 3#8
  | .cancelled => 4#8

/-- The failure code of a `CODE` value (30_encoding.md R123); values 3 to 15 never occur. -/
def FailCode.ofCode (code : Byte) : Option FailCode :=
  match code.toNat with
  | 0 => some .none
  | 1 => some .noIdle
  | 2 => some .cfgInvalid
  | _ => Option.none

/-- The `CODE` value of a failure code (30_encoding.md R123). -/
def FailCode.code (code : FailCode) : Byte :=
  match code with
  | .none => 0#8
  | .noIdle => 1#8
  | .cfgInvalid => 2#8

/-! ## TAP rows and pulse classes -/

/-- The table row of a state and a sampled TMS bit (43_jtag_tap.md R230). -/
def tapRow (t : TapState) (tms : Bool) : Instr :=
  match t, tms with
  | .testLogicReset, false => .tapTestLogicReset0
  | .testLogicReset, true => .tapTestLogicReset1
  | .runTestIdle, false => .tapRunTestIdle0
  | .runTestIdle, true => .tapRunTestIdle1
  | .selectDr, false => .tapSelectDr0
  | .selectDr, true => .tapSelectDr1
  | .captureDr, false => .tapCaptureDr0
  | .captureDr, true => .tapCaptureDr1
  | .shiftDr, false => .tapShiftDr0
  | .shiftDr, true => .tapShiftDr1
  | .exit1Dr, false => .tapExit1Dr0
  | .exit1Dr, true => .tapExit1Dr1
  | .pauseDr, false => .tapPauseDr0
  | .pauseDr, true => .tapPauseDr1
  | .exit2Dr, false => .tapExit2Dr0
  | .exit2Dr, true => .tapExit2Dr1
  | .updateDr, false => .tapUpdateDr0
  | .updateDr, true => .tapUpdateDr1
  | .selectIr, false => .tapSelectIr0
  | .selectIr, true => .tapSelectIr1
  | .captureIr, false => .tapCaptureIr0
  | .captureIr, true => .tapCaptureIr1
  | .shiftIr, false => .tapShiftIr0
  | .shiftIr, true => .tapShiftIr1
  | .exit1Ir, false => .tapExit1Ir0
  | .exit1Ir, true => .tapExit1Ir1
  | .pauseIr, false => .tapPauseIr0
  | .pauseIr, true => .tapPauseIr1
  | .exit2Ir, false => .tapExit2Ir0
  | .exit2Ir, true => .tapExit2Ir1
  | .updateIr, false => .tapUpdateIr0
  | .updateIr, true => .tapUpdateIr1

/-- The 5-bit row index: code of the state in bits 4:1, TMS in bit 0 (30_encoding.md R121). -/
def tapIndex (t : TapState) (tms : Bool) : BitVec 5 := t.code ++ BitVec.ofBool tms

/-- The row a 5-bit index selects; the table is total (30_encoding.md R126). -/
def decodeTap (row : BitVec 5) : Instr :=
  tapRow (TapState.ofCode (row.extractLsb' 1 4)) (row.getLsbD 0)

/-- The operation of a pulse class (42_onewire.md R195). -/
def classInstr (c : PulseClass) : Instr :=
  match c with
  | .unknown => .clsUnknown
  | .one => .clsOne
  | .zero => .clsZero
  | .reset => .clsReset

/-- The operation of a 2-bit class code (30_encoding.md R122). -/
def decodeClass (code : BitVec 2) : Instr :=
  match code.toNat with
  | 0 => .clsUnknown
  | 1 => .clsOne
  | 2 => .clsZero
  | _ => .clsReset

/-! ## Command words -/

/-- A command word: `OP` in bits 7:0, `ENG` in bits 9:8, every other bit zero (30_encoding.md R112). -/
def commandWord (op : Byte) (eng : BitVec 2) : Word := (0#54 ++ eng ++ op : BitVec (54 + 2 + 8))

/-- The command a 64-bit write to `CMD` names: one of nine, or the reason it is illegal (30_encoding.md R113, R125). -/
def decodeCommand (v : Word) : Except DecodeError Instr :=
  if v.extractLsb' 10 54 = 0#54 then
    match (v.extractLsb' 0 8).toNat, (v.extractLsb' 8 2).toNat with
    | 1, 0 => .ok .startOw
    | 1, 1 => .ok .startJtag
    | 1, 2 => .ok .startUart
    | 2, 0 => .ok .cancelOw
    | 2, 1 => .ok .cancelJtag
    | 2, 2 => .ok .cancelUart
    | 3, 0 => .ok .valueAt
    | 4, 0 => .ok .findEdge
    | 5, 0 => .ok .reset
    | 1, _ => .error .engine
    | 2, _ => .error .engine
    | 3, _ => .error .engine
    | 4, _ => .error .engine
    | 5, _ => .error .engine
    | _, _ => .error .operation
  else .error .reservedBits

/-! ## Records -/

/-- The fields of a record's header word (30_encoding.md R114). -/
structure Header where
  kind : Byte
  chan : Byte
  sub : Byte
  flags : Byte
  len : BitVec 32
  deriving DecidableEq, Repr

/-- The header word: `KIND` 7:0, `CHAN` 15:8, `SUB` 23:16, `FLAGS` 31:24, `LEN` 63:32 (30_encoding.md R114). -/
def Header.word (h : Header) : Word :=
  (h.len ++ h.flags ++ h.sub ++ h.chan ++ h.kind : BitVec (32 + 8 + 8 + 8 + 8))

/-- The header fields of a word (30_encoding.md R114). -/
def Header.ofWord (w : Word) : Header where
  kind := w.extractLsb' 0 8
  chan := w.extractLsb' 8 8
  sub := w.extractLsb' 16 8
  flags := w.extractLsb' 24 8
  len := w.extractLsb' 32 32

/-- The `LEN` field of a record with `n` body words (30_encoding.md R114); for more words than it can count, an open value
(log 15). -/
def lenField (n : Nat) : BitVec 32 := if n < 2 ^ 32 then BitVec.ofNat 32 n else Config.overlongLen n

/-- One byte of flags from three bits and five zeros (30_encoding.md R116). -/
def flagByte (b2 b1 b0 : Bool) : Byte := (0#5 ++ BitVec.ofBool b2 ++ BitVec.ofBool b1 ++ BitVec.ofBool b0 : BitVec (5 + 1 + 1 + 1))

/-- `FLAGS` of the two JTAG kinds: `IDX`, the range is in sample indices (30_encoding.md R114). -/
def idxFlag : Byte := 0x80#8

/-- `CHAN` of a record that belongs to no channel (30_encoding.md R114). -/
def noChannel : Byte := 0xFF#8

/-- The header of a record operation, `none` for an operation that is not a record (30_encoding.md R115, R116). -/
def recordHeader (i : Instr) : Option Header :=
  match i with
  | .clear chan => some ⟨0x01#8, chan, 0#8, 0#8, lenField 0⟩
  | .progress percent => some ⟨0x02#8, noChannel, percent, 0#8, lenField 0⟩
  | .endRun st code _ _ => some ⟨0x03#8, noChannel, st, code, lenField 2⟩
  | .owReset chan present _ _ => some ⟨0x10#8, chan, 0#8, flagByte false false present, lenField 2⟩
  | .owByte chan value _ _ => some ⟨0x11#8, chan, value, 0#8, lenField 2⟩
  | .owBusError chan _ _ => some ⟨0x12#8, chan, 0#8, 0#8, lenField 2⟩
  | .jtState chan state _ _ => some ⟨0x20#8, chan, (0#4 ++ state.code : BitVec (4 + 4)), idxFlag, lenField 2⟩
  | .jtShiftTdi chan body => some ⟨0x21#8, chan, 0#8, idxFlag, lenField body.length⟩
  | .jtShiftTdo chan body => some ⟨0x21#8, chan, 1#8, idxFlag, lenField body.length⟩
  | .uaDataRx chan value pe fe _ _ => some ⟨0x30#8, chan, value, flagByte false fe pe, lenField 2⟩
  | .uaDataTx chan value pe fe _ _ => some ⟨0x30#8, chan, value, flagByte true fe pe, lenField 2⟩
  | .uaEvent chan label _ _ => some ⟨0x31#8, chan, (0#4 ++ label : BitVec (4 + 4)), 0#8, lenField 2⟩
  | _ => none

/-- The body words of a record operation (30_encoding.md R116). -/
def recordBody (i : Instr) : List Word :=
  match i with
  | .endRun _ _ sym err => [sym, err]
  | .owReset _ _ start stop => [start, stop]
  | .owByte _ _ start stop => [start, stop]
  | .owBusError _ start stop => [start, stop]
  | .jtState _ _ start stop => [start, stop]
  | .jtShiftTdi _ body => body
  | .jtShiftTdo _ body => body
  | .uaDataRx _ _ _ _ start stop => [start, stop]
  | .uaDataTx _ _ _ _ start stop => [start, stop]
  | .uaEvent _ _ start stop => [start, stop]
  | _ => []

/-- The words of a record operation, header first (30_encoding.md R114); empty for an operation that is no record. -/
def recordWords (i : Instr) : Record :=
  match recordHeader i with
  | some h => h.word :: recordBody i
  | none => []

/-- Answer a record operation when the fields its kind fixes hold what the kind fixes. -/
def whenFixed (ok : Bool) (i : Instr) : Except DecodeError Instr :=
  if ok then .ok i else .error .fixedField

/-- The operation of a stream-only record without a body (30_encoding.md R116). -/
def decodeBare (h : Header) : Except DecodeError Instr :=
  match h.kind.toNat with
  | 0x01 => whenFixed (h.sub == 0#8 && h.flags == 0#8) (.clear h.chan)
  | 0x02 => whenFixed (h.chan == noChannel && h.flags == 0#8) (.progress h.sub)
  | 0x21 => if h.sub = 0#8 then whenFixed (h.flags == idxFlag) (.jtShiftTdi h.chan [])
            else whenFixed (h.sub == 1#8 && h.flags == idxFlag) (.jtShiftTdo h.chan [])
  | 0x03 | 0x10 | 0x11 | 0x12 | 0x20 | 0x30 | 0x31 => .error .length
  | _ => .error .kind

/-- The operation of a record with two body words (30_encoding.md R116). -/
def decodePair (h : Header) (x y : Word) : Except DecodeError Instr :=
  match h.kind.toNat with
  | 0x03 => whenFixed (h.chan == noChannel) (.endRun h.sub h.flags x y)
  | 0x10 => whenFixed (h.sub == 0#8 && h.flags.extractLsb' 1 7 == 0#7) (.owReset h.chan (h.flags.getLsbD 0) x y)
  | 0x11 => whenFixed (h.flags == 0#8) (.owByte h.chan h.sub x y)
  | 0x12 => whenFixed (h.sub == 0#8 && h.flags == 0#8) (.owBusError h.chan x y)
  | 0x20 => whenFixed (h.sub.extractLsb' 4 4 == 0#4 && h.flags == idxFlag)
              (.jtState h.chan (TapState.ofCode (h.sub.extractLsb' 0 4)) x y)
  | 0x21 => if h.sub = 0#8 then whenFixed (h.flags == idxFlag) (.jtShiftTdi h.chan [x, y])
            else whenFixed (h.sub == 1#8 && h.flags == idxFlag) (.jtShiftTdo h.chan [x, y])
  | 0x30 => whenFixed (h.flags.extractLsb' 3 5 == 0#5)
              (if h.flags.getLsbD 2 then .uaDataTx h.chan h.sub (h.flags.getLsbD 0) (h.flags.getLsbD 1) x y
               else .uaDataRx h.chan h.sub (h.flags.getLsbD 0) (h.flags.getLsbD 1) x y)
  | 0x31 => whenFixed (h.sub.extractLsb' 4 4 == 0#4 && h.flags == 0#8) (.uaEvent h.chan (h.sub.extractLsb' 0 4) x y)
  | 0x01 | 0x02 => .error .length
  | _ => .error .kind

/-- The operation of a record with another number of body words: only a JT_SHIFT has one (30_encoding.md R116). -/
def decodeLong (h : Header) (body : List Word) : Except DecodeError Instr :=
  match h.kind.toNat with
  | 0x21 => if h.sub = 0#8 then whenFixed (h.flags == idxFlag) (.jtShiftTdi h.chan body)
            else whenFixed (h.sub == 1#8 && h.flags == idxFlag) (.jtShiftTdo h.chan body)
  | 0x01 | 0x02 | 0x03 | 0x10 | 0x11 | 0x12 | 0x20 | 0x30 | 0x31 => .error .length
  | _ => .error .kind

/-- The operation of a record: `LEN` counts the body words, and `KIND` says what the fields mean (30_encoding.md R114 to R116). -/
def decodeRecord (ws : Record) : Except DecodeError Instr :=
  match ws with
  | [] => .error .noHeader
  | w :: body =>
      if (Header.ofWord w).len = lenField body.length then
        match body with
        | [] => decodeBare (Header.ofWord w)
        | [x, y] => decodePair (Header.ofWord w) x y
        | _ => decodeLong (Header.ofWord w) body
      else .error .length

/-! ## All formats -/

/-- The operation an operation word names, or why it names none (30_encoding.md R110, R125). -/
def decode (w : OpWord) : Except DecodeError Instr :=
  match w with
  | .cmd v => decodeCommand v
  | .record ws => decodeRecord ws
  | .tap row => .ok (decodeTap row)
  | .cls code => .ok (decodeClass code)

/-- The operation word of an operation (30_encoding.md R113, R116, R121, R122). -/
def encode (i : Instr) : OpWord :=
  match i with
  | .startOw => .cmd (commandWord 0x01#8 0#2)
  | .startJtag => .cmd (commandWord 0x01#8 1#2)
  | .startUart => .cmd (commandWord 0x01#8 2#2)
  | .cancelOw => .cmd (commandWord 0x02#8 0#2)
  | .cancelJtag => .cmd (commandWord 0x02#8 1#2)
  | .cancelUart => .cmd (commandWord 0x02#8 2#2)
  | .valueAt => .cmd (commandWord 0x03#8 0#2)
  | .findEdge => .cmd (commandWord 0x04#8 0#2)
  | .reset => .cmd (commandWord 0x05#8 0#2)
  | .clear _ => .record (recordWords i)
  | .progress _ => .record (recordWords i)
  | .endRun _ _ _ _ => .record (recordWords i)
  | .owReset _ _ _ _ => .record (recordWords i)
  | .owByte _ _ _ _ => .record (recordWords i)
  | .owBusError _ _ _ => .record (recordWords i)
  | .jtState _ _ _ _ => .record (recordWords i)
  | .jtShiftTdi _ _ => .record (recordWords i)
  | .jtShiftTdo _ _ => .record (recordWords i)
  | .uaDataRx _ _ _ _ _ _ => .record (recordWords i)
  | .uaDataTx _ _ _ _ _ _ => .record (recordWords i)
  | .uaEvent _ _ _ _ => .record (recordWords i)
  | .tapTestLogicReset0 => .tap (tapIndex .testLogicReset false)
  | .tapTestLogicReset1 => .tap (tapIndex .testLogicReset true)
  | .tapRunTestIdle0 => .tap (tapIndex .runTestIdle false)
  | .tapRunTestIdle1 => .tap (tapIndex .runTestIdle true)
  | .tapSelectDr0 => .tap (tapIndex .selectDr false)
  | .tapSelectDr1 => .tap (tapIndex .selectDr true)
  | .tapCaptureDr0 => .tap (tapIndex .captureDr false)
  | .tapCaptureDr1 => .tap (tapIndex .captureDr true)
  | .tapShiftDr0 => .tap (tapIndex .shiftDr false)
  | .tapShiftDr1 => .tap (tapIndex .shiftDr true)
  | .tapExit1Dr0 => .tap (tapIndex .exit1Dr false)
  | .tapExit1Dr1 => .tap (tapIndex .exit1Dr true)
  | .tapPauseDr0 => .tap (tapIndex .pauseDr false)
  | .tapPauseDr1 => .tap (tapIndex .pauseDr true)
  | .tapExit2Dr0 => .tap (tapIndex .exit2Dr false)
  | .tapExit2Dr1 => .tap (tapIndex .exit2Dr true)
  | .tapUpdateDr0 => .tap (tapIndex .updateDr false)
  | .tapUpdateDr1 => .tap (tapIndex .updateDr true)
  | .tapSelectIr0 => .tap (tapIndex .selectIr false)
  | .tapSelectIr1 => .tap (tapIndex .selectIr true)
  | .tapCaptureIr0 => .tap (tapIndex .captureIr false)
  | .tapCaptureIr1 => .tap (tapIndex .captureIr true)
  | .tapShiftIr0 => .tap (tapIndex .shiftIr false)
  | .tapShiftIr1 => .tap (tapIndex .shiftIr true)
  | .tapExit1Ir0 => .tap (tapIndex .exit1Ir false)
  | .tapExit1Ir1 => .tap (tapIndex .exit1Ir true)
  | .tapPauseIr0 => .tap (tapIndex .pauseIr false)
  | .tapPauseIr1 => .tap (tapIndex .pauseIr true)
  | .tapExit2Ir0 => .tap (tapIndex .exit2Ir false)
  | .tapExit2Ir1 => .tap (tapIndex .exit2Ir true)
  | .tapUpdateIr0 => .tap (tapIndex .updateIr false)
  | .tapUpdateIr1 => .tap (tapIndex .updateIr true)
  | .clsUnknown => .cls (PulseClass.code .unknown)
  | .clsOne => .cls (PulseClass.code .one)
  | .clsZero => .cls (PulseClass.code .zero)
  | .clsReset => .cls (PulseClass.code .reset)

/-! ## The rows of the opcode table -/

/-- A row of spec/opcode_table.json: the bits its mask selects hold its match value. -/
structure TableRow where
  mask : Word
  pat : Word
  deriving DecidableEq, Repr

/-- The row of an operation, its mask and match as the table prints them. -/
def rowOf (i : Instr) : TableRow :=
  match i with
  | .startOw => ⟨0xFFFFFFFF, 0x00000001⟩
  | .startJtag => ⟨0xFFFFFFFF, 0x00000101⟩
  | .startUart => ⟨0xFFFFFFFF, 0x00000201⟩
  | .cancelOw => ⟨0xFFFFFFFF, 0x00000002⟩
  | .cancelJtag => ⟨0xFFFFFFFF, 0x00000102⟩
  | .cancelUart => ⟨0xFFFFFFFF, 0x00000202⟩
  | .valueAt => ⟨0xFFFFFFFF, 0x00000003⟩
  | .findEdge => ⟨0xFFFFFFFF, 0x00000004⟩
  | .reset => ⟨0xFFFFFFFF, 0x00000005⟩
  | .clear _ => ⟨0xFFFFFFFFFFFF00FF, 0x0000000000000001⟩
  | .progress _ => ⟨0xFFFFFFFFFF00FFFF, 0x000000000000FF02⟩
  | .endRun _ _ _ _ => ⟨0xFFFFFFFF0000FFFF, 0x000000020000FF03⟩
  | .owReset _ _ _ _ => ⟨0xFFFFFFFFFEFF00FF, 0x0000000200000010⟩
  | .owByte _ _ _ _ => ⟨0xFFFFFFFFFF0000FF, 0x0000000200000011⟩
  | .owBusError _ _ _ => ⟨0xFFFFFFFFFFFF00FF, 0x0000000200000012⟩
  | .jtState _ _ _ _ => ⟨0xFFFFFFFFFFF000FF, 0x0000000280000020⟩
  | .jtShiftTdi _ _ => ⟨0x00000000FFFF00FF, 0x0000000080000021⟩
  | .jtShiftTdo _ _ => ⟨0x00000000FFFF00FF, 0x0000000080010021⟩
  | .uaDataRx _ _ _ _ _ _ => ⟨0xFFFFFFFFFC0000FF, 0x0000000200000030⟩
  | .uaDataTx _ _ _ _ _ _ => ⟨0xFFFFFFFFFC0000FF, 0x0000000204000030⟩
  | .uaEvent _ _ _ _ => ⟨0xFFFFFFFFFFF000FF, 0x0000000200000031⟩
  | .tapTestLogicReset0 => ⟨0x1F, 0x00⟩
  | .tapTestLogicReset1 => ⟨0x1F, 0x01⟩
  | .tapRunTestIdle0 => ⟨0x1F, 0x02⟩
  | .tapRunTestIdle1 => ⟨0x1F, 0x03⟩
  | .tapSelectDr0 => ⟨0x1F, 0x04⟩
  | .tapSelectDr1 => ⟨0x1F, 0x05⟩
  | .tapCaptureDr0 => ⟨0x1F, 0x06⟩
  | .tapCaptureDr1 => ⟨0x1F, 0x07⟩
  | .tapShiftDr0 => ⟨0x1F, 0x08⟩
  | .tapShiftDr1 => ⟨0x1F, 0x09⟩
  | .tapExit1Dr0 => ⟨0x1F, 0x0A⟩
  | .tapExit1Dr1 => ⟨0x1F, 0x0B⟩
  | .tapPauseDr0 => ⟨0x1F, 0x0C⟩
  | .tapPauseDr1 => ⟨0x1F, 0x0D⟩
  | .tapExit2Dr0 => ⟨0x1F, 0x0E⟩
  | .tapExit2Dr1 => ⟨0x1F, 0x0F⟩
  | .tapUpdateDr0 => ⟨0x1F, 0x10⟩
  | .tapUpdateDr1 => ⟨0x1F, 0x11⟩
  | .tapSelectIr0 => ⟨0x1F, 0x12⟩
  | .tapSelectIr1 => ⟨0x1F, 0x13⟩
  | .tapCaptureIr0 => ⟨0x1F, 0x14⟩
  | .tapCaptureIr1 => ⟨0x1F, 0x15⟩
  | .tapShiftIr0 => ⟨0x1F, 0x16⟩
  | .tapShiftIr1 => ⟨0x1F, 0x17⟩
  | .tapExit1Ir0 => ⟨0x1F, 0x18⟩
  | .tapExit1Ir1 => ⟨0x1F, 0x19⟩
  | .tapPauseIr0 => ⟨0x1F, 0x1A⟩
  | .tapPauseIr1 => ⟨0x1F, 0x1B⟩
  | .tapExit2Ir0 => ⟨0x1F, 0x1C⟩
  | .tapExit2Ir1 => ⟨0x1F, 0x1D⟩
  | .tapUpdateIr0 => ⟨0x1F, 0x1E⟩
  | .tapUpdateIr1 => ⟨0x1F, 0x1F⟩
  | .clsUnknown => ⟨0x3, 0x0⟩
  | .clsOne => ⟨0x3, 0x1⟩
  | .clsZero => ⟨0x3, 0x2⟩
  | .clsReset => ⟨0x3, 0x3⟩

/-- The number whose bits a table row's mask reads: the word itself, or a record's header word. -/
def OpWord.leading (w : OpWord) : Word :=
  match w with
  | .cmd v => v
  | .record ws => ws.headD 0#64
  | .tap row => row.setWidth 64
  | .cls code => code.setWidth 64

/-- The word lies in the row. -/
def TableRow.holds (r : TableRow) (w : OpWord) : Bool := (w.leading &&& r.mask) == r.pat

/-! ## Bytes of a serialisation -/

/-- The low `n` bytes of a quantity in the one byte order of a serialisation, the byte of bits 7:0 first (20_memory.md R84). -/
def leBytes {width : Nat} (n : Nat) (v : BitVec width) : List Byte := (List.range n).map (fun k => v.extractLsb' (8 * k) 8)

/-- The eight bytes of a register or record word (20_memory.md R84). -/
def wordBytes (w : Word) : List Byte := leBytes 8 w

/-- The word of eight bytes, the byte of bits 7:0 first (20_memory.md R84). -/
def bytesWord (bs : List Byte) : Word := bs.foldr (fun b acc => (acc <<< 8) ||| b.setWidth 64) 0#64

/-- The bytes of a record: its words in order, each little-endian (20_memory.md R84). -/
def recordBytes (ws : Record) : List Byte := ws.flatMap wordBytes

/-- The next `n` words of a byte sequence and what follows them; `none` where the bytes end early. -/
def takeWords : Nat → List Byte → Option (List Word × List Byte)
  | 0, bs => some ([], bs)
  | n + 1, bs =>
      if bs.length < 8 then none
      else
        match takeWords n (bs.drop 8) with
        | some (ws, rest) => some (bytesWord (bs.take 8) :: ws, rest)
        | none => none

/-- The first record of a serialised stream and the bytes after it: a header, then `LEN` body words
(30_encoding.md R114, 20_memory.md R84). -/
def decodeBytes (bs : List Byte) : Except DecodeError (Instr × List Byte) :=
  match takeWords 1 bs with
  | none => .error .noHeader
  | some (hs, rest) =>
      match takeWords (min (Header.ofWord (hs.headD 0#64)).len.toNat (rest.length + 1)) rest with
      | none => .error .length
      | some (body, rest') =>
          match decodeRecord (hs ++ body) with
          | .ok i => .ok (i, rest')
          | .error e => .error e

/-- The bytes of a sample entry: its timestamp, then the four bytes of its value, each little-endian (20_memory.md R84; that the
timestamp comes first and the value takes four bytes is a DESIGN CHOICE, log 29). -/
def sampleBytes (x : Machine.Sample) : List Byte := wordBytes x.ts ++ leBytes 4 x.val

/-- A sample-memory image: the entries in index order with nothing between them (20_memory.md R84; the layout: log 29). -/
def memoryBytes (m : Machine.Memory) : List Byte := m.flatMap sampleBytes

/-- The entry whose bytes stand first. -/
def bytesSample (bs : List Byte) : Machine.Sample :=
  ⟨bytesWord (bs.take 8), (bytesWord ((bs.drop 8).take 4)).setWidth 32⟩

/-- The first `n` entries of an image and the bytes after them; `none` where the bytes end early. -/
def takeSamples : Nat → List Byte → Option (Machine.Memory × List Byte)
  | 0, bs => some ([], bs)
  | n + 1, bs =>
      if bs.length < 12 then none
      else
        match takeSamples n (bs.drop 12) with
        | some (m, rest) => some (bytesSample bs :: m, rest)
        | none => none

/-! ## The host's numbering -/

/-- The most body words `tableOp` lays out for a record: the longest instruction of the interface. -/
def tableBodyMax : Nat := 8

/-- The operation word of the bits `w` of a table row that has `nbits` bits. A class row has 2 bits, a TAP row 5, a command 32, a
record header 64; a row given in whole bytes reads 8 bits as a TAP row (log 10), and 32 bits whose low byte is the kind
0x21 as the low half of a JT_SHIFT header. Body words are the words of `w` above its first 64 bits. -/
def tableOp (nbits w : Nat) : OpWord :=
  if nbits ≤ 2 then .cls (BitVec.ofNat 2 w)
  else if nbits ≤ 8 then (if w < 32 then .tap (BitVec.ofNat 5 w) else .record [])
  else if nbits ≤ 32 && w % 256 != 0x21 then .cmd (BitVec.ofNat 64 w)
  else
    .record (natWord w ::
      (List.range (min (Header.ofWord (natWord w)).len.toNat tableBodyMax)).map (fun k => natWord (w >>> (64 * (k + 1)))))

/-- The instruction the decoder reads from a table row's bits, numbered as spec/opcode_table.json numbers them. -/
def decodeTableWord (nbits w : Nat) : Option Instr :=
  match decode (tableOp nbits w) with
  | .ok i => some i
  | .error _ => none

end Sys2Proof
end

