-- ==== Sys2Proof/Machine/State.lean ====
section
/-!
DEFINITION. The state of the SPD block as plain data (10_state.md R20), the actions of the world outside it (46_host_commands.md R380),
and the state right after reset (70_reset_and_hazards.md R440, 10_state.md R70).
-/

namespace Sys2Proof.Machine

/-- One thing that happens outside the engines, between two engine steps (46_host_commands.md R380), or the choice that an engine
moves next (20_memory.md R92). -/
inductive HostAct where
  /-- read the register of this number (46_host_commands.md R381) -/
  | readReg (number : Nat)
  /-- write the register of this number (46_host_commands.md R381) -/
  | writeReg (number : Nat) (value : Word)
  /-- take the record at the head of an engine's event stream (46_host_commands.md R393) -/
  | consume (e : EngineId)
  /-- read the record at this position of an engine's result memory (46_host_commands.md R393) -/
  | readResult (e : EngineId) (position : Nat)
  /-- the block's reset input (70_reset_and_hazards.md R440) -/
  | resetInput
  /-- the acquisition puts a capture with its rate and trigger in place (46_host_commands.md R380) -/
  | capture (samples : Memory) (rate trigger : Word)
  /-- the engine takes its next step, if it is RUNNING (10_state.md R29) -/
  | turn (e : EngineId)
  deriving DecidableEq, Repr, Inhabited

/-- Why the model stops. Every one is safe: the model stops where the spec says `fault` or where no run of the rules comes. -/
inductive Fault where
  /-- `step`, on an operation word the block never produces (93 U9): a malformed record, or a record whose fields hold values the spec
  does not give (log 11). Safe. -/
  | malformedRecord
  /-- the acquisition's `capture` while an engine is RUNNING (93 U6, log 12). Safe. -/
  | captureChangedWhileRunning
  /-- an engine step that would read an entry outside `0..N-1` (20_memory.md R80, log 13). Safe. -/
  | sampleIndexOutOfRange
  /-- an engine step that would read a level before the first entry (40_edge_scanner.md R151, log 13). Safe. -/
  | levelBeforeFirstSample
  /-- a UART step whose lane number is outside the lane list, or whose lane is of the other kind (44_uart.md R310, log 13). Safe. -/
  | laneOutOfRange
  deriving DecidableEq, Repr

/-- Why the model declines an instruction. -/
inductive Refusal where
  /-- `exec`, for an instruction without a meaning; no arm answers so. Safe. -/
  | notModelled (mnemonic : String)
  deriving DecidableEq, Repr

/-- The state of the block. The fields `cur` to `tick` and the three program counters are the model's own (INVENTORY.md, State). -/
structure State where
  /-- the sample memory; its length is `SB_COUNT` (10_state.md R21, R23) -/
  samples : Memory
  /-- `SB_RATE` (10_state.md R23) -/
  sbRate : Word
  /-- `SB_TRIG` (10_state.md R23) -/
  sbTrig : Word
  /-- `BLK_STATUS.CMD_INVALID` (10_state.md R41) -/
  cmdInvalid : Bool
  /-- `PR_T0` (10_state.md R42) -/
  prT0 : Word
  /-- `PR_T1` (10_state.md R42) -/
  prT1 : Word
  /-- `PR_MASK` as written; bits 31:0 are read and used (10_state.md R40, R42; log 27) -/
  prMask : Word
  /-- `PR_DIR` as written; bit 0 is read and used (10_state.md R40, R42; log 27) -/
  prDir : Word
  /-- `PR_RES_IDX` (10_state.md R42) -/
  prResIdx : Word
  /-- `PR_RES_TS` (10_state.md R42) -/
  prResTs : Word
  /-- `PR_RES_VAL` (10_state.md R42) -/
  prResVal : Word
  /-- `PR_STAT` (10_state.md R42) -/
  prStat : Word
  /-- the 1-Wire configuration registers -/
  owConfig : OwConfig
  /-- the 1-Wire latched and working registers -/
  owWork : OwWork
  /-- the 1-Wire status, counters, stream and result memory -/
  owOut : EngineOut
  /-- the 1-Wire engine's next step -/
  owPc : OwPc
  /-- the JTAG configuration registers -/
  jtConfig : JtConfig
  /-- the JTAG latched and working registers -/
  jtWork : JtWork
  /-- the JTAG status, counters, stream and result memory -/
  jtOut : EngineOut
  /-- the JTAG engine's next step -/
  jtPc : JtPc
  /-- the UART configuration registers -/
  uaConfig : UaConfig
  /-- the UART latched and working registers -/
  uaWork : UaWork
  /-- the UART status, counters, stream and result memory -/
  uaOut : EngineOut
  /-- the UART engine's next step -/
  uaPc : UaPc
  /-- the engine executing the current step (45_emitter.md R340) -/
  cur : EngineId
  /-- operation words formed and not yet carried out, front first (log 7) -/
  ops : List OpWord
  /-- outside actions still to come, front first (log 6) -/
  inbox : List HostAct
  /-- the words the last read, consume or result read returned (log 20) -/
  hostReply : List Word
  /-- counts the uses of free values (log 4, log 6) -/
  tick : Nat
  deriving DecidableEq, Repr

/-! ## Reset values (10_state.md R70) -/

/-- A status register after reset: IDLE, NONE, not pending (10_state.md R49). -/
def Status.reset : Status := ⟨.idle, .none, false⟩

/-- An engine's output side after reset: registers 0, stream and result memory empty (10_state.md R70). -/
def EngineOut.reset : EngineOut := ⟨Status.reset, 0#64, 0#64, 0#64, [], []⟩

/-- The 1-Wire configuration after reset (10_state.md R70). -/
def OwConfig.reset : OwConfig := ⟨0#64, 0#64, 0xFF#64, 0#64⟩

/-- The JTAG configuration after reset (10_state.md R70). -/
def JtConfig.reset : JtConfig := ⟨0#64, 0#64, 0xFF#64, 0xFF#64, 0xFF#64, 0xFF#64⟩

/-- The UART configuration after reset (10_state.md R70). -/
def UaConfig.reset : UaConfig where
  winS := 0#64
  winE := 0#64
  rxd := 0xFF#64
  txd := 0xFF#64
  cts := 0xFF#64
  rts := 0xFF#64
  dtr := 0xFF#64
  dsr := 0xFF#64
  dcd := 0xFF#64
  ri := 0xFF#64
  frame := 0#64
  baud := 0#64

/-- A timing window of zeros: the value the model names for the latched profile before the first run (DESIGN CHOICE, log 3). -/
def TimingWindow.zero : TimingWindow := ⟨0, 0⟩

/-- A profile of zeros (DESIGN CHOICE, log 3). -/
def Profile.zero : Profile :=
  ⟨.zero, .zero, .zero, .zero, .zero, .zero, .zero, .zero, .zero⟩

/-- The 1-Wire working registers before the first run: the spec gives none (DESIGN CHOICE, unsafe, log 3). -/
def OwWork.named : OwWork where
  winS := 0
  winE := 0
  line := 0#8
  mode := .standard
  mask := 0#32
  profile := Profile.zero
  bitTicks := 0
  resetTicks := 0
  tStart := 0
  tEnd := 0
  cursor := 0
  bitCount := 8
  byteValue := 0#8
  byteStart := none
  f := 0
  r := 0

/-- The JTAG working registers before the first run: the spec gives none (DESIGN CHOICE, unsafe, log 3). -/
def JtWork.named : JtWork where
  winS := 0
  winE := 0
  tck := 0#8
  tms := 0#8
  tdi := none
  tdo := none
  tStart := 0
  tEnd := 0
  current := .testLogicReset
  previous := .testLogicReset
  spanStart := 0
  tdiAcc := []
  tdoAcc := []
  shiftFirst := none
  shiftLast := none
  idx := 0

/-- The UART working registers before the first run: the spec gives none (DESIGN CHOICE, unsafe, log 3). -/
def UaWork.named : UaWork where
  winS := 0
  winE := 0
  frame := 0#64
  baud := 0#64
  lanes := []
  lane := 0
  tStart := 0
  tEnd := 0
  cursor := 0
  t0 := 0
  cell := ⟨1, 1⟩
  value := 0#8
  pbit := false
  pe := false
  fe := false
  tLast := 0
  evTime := 0
  evLevel := false

/-- The machine right after reset, with nothing placed from outside: registers as 10_state.md R70 says, no engine running; the
capture, which reset does not touch and for which the spec gives no power-on content, is empty (DESIGN CHOICE, unsafe, log 2). -/
def State.reset : State where
  samples := []
  sbRate := 0#64
  sbTrig := 0#64
  cmdInvalid := false
  prT0 := 0#64
  prT1 := 0#64
  prMask := 0#64
  prDir := 0#64
  prResIdx := 0#64
  prResTs := 0#64
  prResVal := 0#64
  prStat := 0#64
  owConfig := OwConfig.reset
  owWork := OwWork.named
  owOut := EngineOut.reset
  owPc := .idle
  jtConfig := JtConfig.reset
  jtWork := JtWork.named
  jtOut := EngineOut.reset
  jtPc := .idle
  uaConfig := UaConfig.reset
  uaWork := UaWork.named
  uaOut := EngineOut.reset
  uaPc := .idle
  cur := .ow
  ops := []
  inbox := []
  hostReply := []
  tick := 0

end Sys2Proof.Machine
end

