-- ==== Sys2Proof/Machine/Operands.lean ====
section
/-!
DEFINITION. Operand forms: the register numbers of 10_state.md R23 and R41 to R55, and how a configuration register is read as a window,
a channel index, a mode or a frame format (R43 to R48).
-/

namespace Sys2Proof.Machine

/-! ## Fields of configuration registers -/

/-- The byte of a channel-index register (10_state.md R44). -/
def chanByte (w : Word) : Byte := w.setWidth 8

/-- The channel-index byte that means "not present" or "unused", -1 (10_state.md R44). -/
def absentByte : Byte := 0xFF#8

/-- A legal channel-index register: bits 63:8 zero, and the byte 0..31 or -1 (10_state.md R44, 46_host_commands.md R385 condition 3). -/
def chanRegLegal (w : Word) : Bool :=
  decide (w.toNat < 256) && (decide ((chanByte w).toNat < Config.channels) || chanByte w == absentByte)

/-- The channel a legal register names, `none` for -1 (10_state.md R44). -/
def chanOf (w : Word) : Option Byte := if chanByte w = absentByte then none else some (chanByte w)

/-- The mode of `OW_MODE` bit 0 (10_state.md R45). -/
def owModeOf (w : Word) : OwMode := if w.getLsbD 0 then .overdrive else .standard

/-- The direction of `PR_DIR` bit 0 (10_state.md R42). -/
def dirOf (w : Word) : EdgeDir := if w.getLsbD 0 then .falling else .rising

/-- The data bits of a frame, 5 to 8 (10_state.md R47). -/
def frameBits (frame : Word) : Nat := (frame.extractLsb' 0 2).toNat + 5

/-- The parity setting of a frame; the value 3 is reserved (10_state.md R47). -/
def frameParity (frame : Word) : Option Parity :=
  match (frame.extractLsb' 2 2).toNat with
  | 0 => some .none
  | 1 => some .odd
  | 2 => some .even
  | _ => none

/-- The stop-bit setting of a frame; the value 3 is reserved (10_state.md R47). -/
def frameStop (frame : Word) : Option StopBits :=
  match (frame.extractLsb' 4 2).toNat with
  | 0 => some .one
  | 1 => some .oneAndHalf
  | 2 => some .two
  | _ => none

/-- The inversion flag of a frame (10_state.md R47). -/
def frameInvert (frame : Word) : Bool := frame.getLsbD 6

/-- A legal frame register: no reserved value, bits 63:7 zero (46_host_commands.md R385 condition 6). -/
def frameLegal (frame : Word) : Bool :=
  (frameParity frame).isSome && (frameStop frame).isSome && frame.extractLsb' 7 57 == 0#57

/-- The lanes in their fixed order with their configuration registers (44_uart.md R291). -/
def laneRegs (c : UaConfig) : List (LaneKind × Word) :=
  [(.rx, c.rxd), (.tx, c.txd), (.cts, c.cts), (.rts, c.rts), (.dtr, c.dtr), (.dsr, c.dsr), (.dcd, c.dcd), (.ri, c.ri)]

/-- UART.LANES (44_uart.md R291): every configured line, in the fixed order. -/
def lanesOf (c : UaConfig) : List Lane :=
  (laneRegs c).filterMap (fun p => (chanOf p.2).map (fun ch => ⟨p.1, ch⟩))

/-- Whether a lane is a data lane, RX or TX (44_uart.md R291). -/
def isDataLane (k : LaneKind) : Bool :=
  match k with
  | .rx => true
  | .tx => true
  | _ => false

/-- The line number of a handshake lane: 0 CTS to 5 RI (30_encoding.md R124). A data lane has none; it is given 0. -/
def handshakeLine (k : LaneKind) : Nat :=
  match k with
  | .cts => 0
  | .rts => 1
  | .dtr => 2
  | .dsr => 3
  | .dcd => 4
  | .ri => 5
  | .rx => 0
  | .tx => 0

/-- The label code `2 * line + level` of a handshake event (30_encoding.md R124). -/
def labelCode (k : LaneKind) (high : Bool) : BitVec 4 := BitVec.ofNat 4 (2 * handshakeLine k + high.toNat)

/-! ## When a START is accepted (46_host_commands.md R385, R386) -/

/-- Condition 2: the window is legal. -/
def windowLegal (winS winE : Word) (count : Nat) : Bool := decide (winS ≤ winE) && decide (winE.toNat ≤ count)

/-- `CFG_OK` of the 1-Wire engine: conditions 1 to 5. -/
def owConfigOk (s : State) : Bool :=
  s.sbRate != 0#64 && windowLegal s.owConfig.winS s.owConfig.winE s.samples.length
    && chanRegLegal s.owConfig.line && chanByte s.owConfig.line != absentByte
    && decide (s.owConfig.mode.toNat < 2)

/-- `CFG_OK` of the JTAG engine: conditions 1 to 4. -/
def jtConfigOk (s : State) : Bool :=
  s.sbRate != 0#64 && windowLegal s.jtConfig.winS s.jtConfig.winE s.samples.length
    && chanRegLegal s.jtConfig.tck && chanRegLegal s.jtConfig.tms
    && chanRegLegal s.jtConfig.tdi && chanRegLegal s.jtConfig.tdo
    && chanByte s.jtConfig.tck != absentByte && chanByte s.jtConfig.tms != absentByte

/-- `CFG_OK` of the UART engine: conditions 1 to 3, 6 and 7. -/
def uaConfigOk (s : State) : Bool :=
  s.sbRate != 0#64 && windowLegal s.uaConfig.winS s.uaConfig.winE s.samples.length
    && (laneRegs s.uaConfig).all (fun p => chanRegLegal p.2)
    && frameLegal s.uaConfig.frame && decide (s.uaConfig.baud.toNat < 2 ^ 32)

/-! ## Register numbers -/

/-- The bounds of the profile image: window index `w` and `k` (10_state.md R55). -/
def profileBound (p : Profile) (w k : Nat) : Nat :=
  let win : TimingWindow :=
    match w with
    | 0 => p.a
    | 1 => p.b
    | 2 => p.c
    | 3 => p.d
    | 4 => p.e
    | 5 => p.g
    | 6 => p.h
    | 7 => p.i
    | _ => p.j
  if k = 0 then win.min else win.max

/-- The named registers of the block (10_state.md R23, R41 to R50) and the profile image (R55). -/
inductive Reg where
  | sbCount | sbRate | sbTrig | blkStatus | cmd
  | prT0 | prT1 | prMask | prDir | prResIdx | prResTs | prResVal | prStat
  | owWinS | owWinE | owLine | owMode
  | jtWinS | jtWinE | jtTck | jtTms | jtTdi | jtTdo
  | uaWinS | uaWinE | uaRxd | uaTxd | uaCts | uaRts | uaDtr | uaDsr | uaDcd | uaRi | uaFrame | uaBaud
  | status (e : EngineId) | progress (e : EngineId) | symcnt (e : EngineId) | errcnt (e : EngineId)
  | profile (mode : OwMode) (window bound : Nat)
  deriving DecidableEq, Repr

/-- The register of a number; `none` is a hole (10_state.md R51, 20_memory.md R89). -/
def regOf (number : Nat) : Option Reg :=
  match number with
  | 0x00 => some .sbCount
  | 0x01 => some .sbRate
  | 0x02 => some .sbTrig
  | 0x06 => some .blkStatus
  | 0x07 => some .cmd
  | 0x08 => some .prT0
  | 0x09 => some .prT1
  | 0x0A => some .prMask
  | 0x0B => some .prDir
  | 0x0C => some .prResIdx
  | 0x0D => some .prResTs
  | 0x0E => some .prResVal
  | 0x0F => some .prStat
  | 0x10 => some .owWinS
  | 0x11 => some .owWinE
  | 0x12 => some .owLine
  | 0x13 => some .owMode
  | 0x18 => some (.status .ow)
  | 0x19 => some (.progress .ow)
  | 0x1A => some (.symcnt .ow)
  | 0x1B => some (.errcnt .ow)
  | 0x20 => some .jtWinS
  | 0x21 => some .jtWinE
  | 0x22 => some .jtTck
  | 0x23 => some .jtTms
  | 0x24 => some .jtTdi
  | 0x25 => some .jtTdo
  | 0x28 => some (.status .jtag)
  | 0x29 => some (.progress .jtag)
  | 0x2A => some (.symcnt .jtag)
  | 0x2B => some (.errcnt .jtag)
  | 0x30 => some .uaWinS
  | 0x31 => some .uaWinE
  | 0x32 => some .uaRxd
  | 0x33 => some .uaTxd
  | 0x34 => some .uaCts
  | 0x35 => some .uaRts
  | 0x36 => some .uaDtr
  | 0x37 => some .uaDsr
  | 0x38 => some .uaDcd
  | 0x39 => some .uaRi
  | 0x3A => some .uaFrame
  | 0x3B => some .uaBaud
  | 0x3C => some (.status .uart)
  | 0x3D => some (.progress .uart)
  | 0x3E => some (.symcnt .uart)
  | 0x3F => some (.errcnt .uart)
  | n =>
      if 0x40 ≤ n ∧ n ≤ 0x51 then some (.profile .standard ((n - 0x40) / 2) ((n - 0x40) % 2))
      else if 0x60 ≤ n ∧ n ≤ 0x71 then some (.profile .overdrive ((n - 0x60) / 2) ((n - 0x60) % 2))
      else none

end Sys2Proof.Machine
end

