-- ==== Sys2Proof/Machine/Scanner.lean ====
section
/-!
DEFINITION. The edge scanner (spec 40_edge_scanner.md): VALUE_AT, FIND_EDGE, FIRST_ACTIVE, LEVEL and WINDOW, pure functions of the
sample memory; and the form a capture has (10_state.md R22).
-/

namespace Sys2Proof.Machine

/-- The timestamp of an entry as the integer it stands for (00_scope.md R10). -/
def Sample.time (x : Sample) : Int := x.ts.toInt

/-- An answer of the scanner: index, timestamp and value of the entry found (40_edge_scanner.md R150, R152). -/
structure Hit where
  idx : Nat
  ts : Word
  val : ChannelBits
  deriving DecidableEq, Repr, Inhabited

/-- The time of an answer. -/
def Hit.time (h : Hit) : Int := h.ts.toInt

/-- Every entry of a list is later than `t`, and the list rises strictly. -/
def risingFrom (t : Int) (m : Memory) : Bool :=
  match m with
  | [] => true
  | x :: xs => decide (t < x.time) && risingFrom x.time xs

/-- The form of a capture: timestamps strictly increasing (10_state.md R22). The block does not check it (93 U5). -/
def Memory.wf (m : Memory) : Bool :=
  match m with
  | [] => true
  | x :: xs => risingFrom x.time xs

/-- The mask of one channel, `1 << c` (00_scope.md R9, R16). -/
def chanMask (chan : Byte) : ChannelBits := 1#32 <<< chan.toNat

/-- Whether at least one masked channel is high (20_memory.md R83). -/
def active (val mask : ChannelBits) : Bool := val &&& mask != 0#32

/-- The edge predicate between an entry's predecessor and the entry (40_edge_scanner.md R153). -/
def edge (prev val mask : ChannelBits) (dir : EdgeDir) : Bool :=
  match dir with
  | .rising => !active prev mask && active val mask
  | .falling => active prev mask && !active val mask

/-- The last entry at or before `t`, from entry number `i` on, or the answer `best` so far. -/
def lastAtOrBefore (t : Int) (i : Nat) (m : Memory) (best : Option Hit) : Option Hit :=
  match m with
  | [] => best
  | x :: xs => lastAtOrBefore t (i + 1) xs (if x.time ≤ t then some ⟨i, x.ts, x.val⟩ else best)

/-- VALUE_AT (40_edge_scanner.md R150): the entry with the greatest index at or before `t`; `none` is `NoSample`. -/
def valueAt (m : Memory) (t : Int) : Option Hit :=
  match m with
  | [] => none
  | x :: _ => if t < x.time then none else lastAtOrBefore t 0 m none

/-- The first edge strictly inside `(t0, t1)` among the entries from number `i` on, whose predecessor has value `prev`. -/
def findEdgeFrom (t0 t1 : Int) (mask : ChannelBits) (dir : EdgeDir) (i : Nat) (prev : ChannelBits) (m : Memory) : Option Hit :=
  match m with
  | [] => none
  | x :: xs =>
      if t0 < x.time ∧ x.time < t1 ∧ edge prev x.val mask dir = true then some ⟨i, x.ts, x.val⟩
      else findEdgeFrom t0 t1 mask dir (i + 1) x.val xs

/-- FIND_EDGE (40_edge_scanner.md R152): candidates are the entries from number 1 on; `none` is `NotFound`. -/
def findEdge (m : Memory) (t0 t1 : Int) (mask : ChannelBits) (dir : EdgeDir) : Option Hit :=
  match m with
  | [] => none
  | x :: xs => findEdgeFrom t0 t1 mask dir 1 x.val xs

/-- The first entry with a masked channel high, among the entries from number `i` on. -/
def firstActiveFrom (mask : ChannelBits) (i : Nat) (m : Memory) : Option Hit :=
  match m with
  | [] => none
  | x :: xs => if active x.val mask then some ⟨i, x.ts, x.val⟩ else firstActiveFrom mask (i + 1) xs

/-- FIRST_ACTIVE (40_edge_scanner.md R155): a level search over the entries `S ≤ i < E`. -/
def firstActive (m : Memory) (s e : Nat) (mask : ChannelBits) : Option Hit :=
  firstActiveFrom mask s ((m.take e).drop s)

/-- LEVEL (40_edge_scanner.md R151): the level of a channel at a time; `none` where VALUE_AT answers `NoSample`. -/
def level (m : Memory) (t : Int) (chan : Byte) : Option Bool :=
  match valueAt m t with
  | some h => some (active h.val (chanMask chan))
  | none => none

/-- WINDOW (40_edge_scanner.md R156): the times of an index window `S < E ≤ N`; `none` where an entry it reads is absent. -/
def window (m : Memory) (s e : Nat) : Option (Int × Int) :=
  match m[s]?, (if e < m.length then m[e]? else m[m.length - 1]?) with
  | some x, some y => some (x.time, if e < m.length then y.time else y.time + 1)
  | _, _ => none

end Sys2Proof.Machine
end

