-- ==== Sys2Proof/Machine/Flags.lean ====
section
/-!
DEFINITION. The flags and derived quantities of 10_state.md R30: the status word, `slavePresent`, `parityError`, `frameError`, the error
weight of a symbol, and the progress percentages.
-/

namespace Sys2Proof.Machine

/-- A status register as the host reads it: `STATE` 2:0, `CODE` 7:4, `CANCEL_PENDING` 8 (10_state.md R49). -/
def Status.word (st : Status) : Word :=
  (0#55 ++ BitVec.ofBool st.cancelPending ++ st.code.code.extractLsb' 0 4 ++ 0#1 ++ st.state.code.extractLsb' 0 3 :
    BitVec (55 + 1 + 4 + 1 + 3))

/-- OW.PRESENCE (42_onewire.md R196): the release of the line after `f`, then a falling edge within `iMax`, both before `wEnd`. -/
def presence (m : Memory) (rate : Word) (mask : ChannelBits) (p : Profile) (f wEnd : Int) : Bool :=
  match findEdge m f wEnd mask .rising with
  | none => false
  | some a =>
      match findEdge m a.time wEnd mask .falling with
      | none => false
      | some b => presentWidth p (us rate (b.time - a.time))

/-- The number of 1 bits of a byte (00_scope.md R9). -/
def popcount (v : Byte) : Nat := ((List.range 8).filter (fun k => v.getLsbD k)).length

/-- `parityError` (44_uart.md R300): the ones of the value and the parity bit do not have the configured parity. -/
def parityError (par : Parity) (value : Byte) (pbit : Bool) : Bool :=
  match par with
  | .none => false
  | .odd => (popcount value + pbit.toNat) % 2 == 0
  | .even => (popcount value + pbit.toNat) % 2 == 1

/-- `frameError` (44_uart.md R302): at least one stop sample is at the active level. -/
def frameError (inv : Bool) (stops : List Bool) : Bool := stops.any (fun lv => lv == inv)

/-- What a symbol adds to the error counter (45_emitter.md R343). -/
def errorWeight (i : Instr) : Nat :=
  match i with
  | .owBusError _ _ _ => 1
  | .uaDataRx _ _ pe fe _ _ => pe.toNat + fe.toNat
  | .uaDataTx _ _ pe fe _ _ => pe.toNat + fe.toNat
  | _ => 0

/-- `clamp(x, lo, hi)` (00_scope.md R10). -/
def clamp (x lo hi : Int) : Int := max lo (min hi x)

/-- `clamp(floor(part * 100 / whole), 0, 100)` (42_onewire.md R202, 43_jtag_tap.md R258); `whole` is positive in every run. -/
def percentOf (part whole : Int) : Byte := BitVec.ofInt 8 (clamp (part * 100 / whole) 0 100)

/-- The UART percentage (44_uart.md R305): lane `j` of `lanes`, `part` of `whole` done of the lane's window:
`floor((j + part / whole) * 100 / lanes)` with the fraction clamped to 0..1. -/
def lanePercent (j lanes : Nat) (part whole : Int) : Byte :=
  BitVec.ofInt 8 (clamp (((j : Int) * whole + clamp part 0 whole) * 100 / (lanes * whole)) 0 100)

/-- SAMPLE_T at `quarters / 4` cells after the start edge, rounded toward minus infinity (44_uart.md R296, 00_scope.md R16). -/
def sampleTime (t0 : Int) (cell : Frac) (quarters : Nat) : Int :=
  (t0 * (4 * (cell.den : Int)) + quarters * cell.num) / (4 * (cell.den : Int))

/-- The parity cells of a frame, 0 or 1 (44_uart.md R290). -/
def parityCells (par : Parity) : Nat :=
  match par with
  | .none => 0
  | .odd => 1
  | .even => 1

/-- The stop sample positions in quarters of a cell after the start edge (44_uart.md R296), `n` data bits and `p` parity cells:
`base + 1/2`, and for 1.5 stop bits `base + 5/4`, for 2 `base + 3/2`. -/
def stopPositions (n p : Nat) (stp : StopBits) : List Nat :=
  let base := 4 * (1 + n + p)
  match stp with
  | .one => [base + 2]
  | .oneAndHalf => [base + 2, base + 5]
  | .two => [base + 2, base + 6]

/-- The positions of the `n` data bits in quarters of a cell: `k + 3/2` (44_uart.md R296). -/
def dataPositions (n : Nat) : List Nat := (List.range n).map (fun k => 4 * k + 6)

/-- The value of data bits, first bit lowest (44_uart.md R298). -/
def assembleLsbFirst (bits : List Bool) : Byte :=
  bits.foldr (fun b acc => (acc <<< 1) ||| (BitVec.ofBool b).setWidth 8) 0#8

/-! ## JT_SHIFT bit words (30_encoding.md R117) -/

/-- The number a bit-string stands for, its leftmost character most significant (30_encoding.md R117). -/
def bitsNumber (bits : List Bool) : Nat := bits.foldl (fun acc b => 2 * acc + b.toNat) 0

/-- The bit words of a bit-string, word 3 least significant (30_encoding.md R117). -/
def bitWords (bits : List Bool) : List Word :=
  (List.range (bitWordCount bits.length)).map (fun k => natWord (bitsNumber bits >>> (64 * k)))

/-- The body of a JT_SHIFT record (30_encoding.md R116): start, end, `nbits`, bit words. -/
def shiftBody (first last : Nat) (bits : List Bool) : List Word :=
  natWord first :: natWord last :: natWord bits.length :: bitWords bits

/-- The bit-string of a JT_SHIFT body, leftmost character first (30_encoding.md R117). -/
def shiftBits (body : List Word) : List Bool :=
  match body with
  | _ :: _ :: nbits :: ws => ((List.range nbits.toNat).map (fun j => (ws.getD (j / 64) 0#64).getLsbD (j % 64))).reverse
  | _ => []

end Sys2Proof.Machine
end

