-- ==== Sys2Proof/Machine/Ops.lean ====
section
/-!
DEFINITION. The named operations over the block's state: the emitter (spec 45_emitter.md), forming operation words, starting and ending a
run, the END step as the block's one way of taking a condition (60_exceptions.md R412), block reset (70_reset_and_hazards.md R440), and
register read and write (46_host_commands.md R381).
-/

namespace Sys2Proof.Machine

/-- The answer of a step of this machine. -/
abbrev Result := Host.Outcome State Fault Refusal

/-! ## The output side of an engine -/

/-- An engine's status, counters, stream and result memory. -/
def State.out (s : State) (e : EngineId) : EngineOut :=
  match e with
  | .ow => s.owOut
  | .jtag => s.jtOut
  | .uart => s.uaOut

/-- Replace an engine's output side. -/
def State.setOut (s : State) (e : EngineId) (o : EngineOut) : State :=
  match e with
  | .ow => { s with owOut := o }
  | .jtag => { s with jtOut := o }
  | .uart => { s with uaOut := o }

/-- Whether an engine is RUNNING; only then its steps are enabled (10_state.md R29). -/
def State.running (s : State) (e : EngineId) : Bool := (s.out e).status.state == .running

/-- Replace an engine's status register. -/
def setStatus (e : EngineId) (st : Status) (s : State) : State := s.setOut e { s.out e with status := st }

/-! ## The emitter (45_emitter.md) -/

/-- `emit REC` (45_emitter.md R340): the record goes to the tail of the engine's event stream. -/
def emit (e : EngineId) (r : Record) (s : State) : State :=
  s.setOut e { s.out e with stream := (s.out e).stream ++ [r] }

/-- `append and emit SYM` (45_emitter.md R342): result memory, symbol counter, error counter by the symbol's weight (R343), stream. -/
def appendSymbol (e : EngineId) (r : Record) (weight : Nat) (s : State) : State :=
  s.setOut e { s.out e with
    result := (s.out e).result ++ [r]
    symcnt := (s.out e).symcnt + 1#64
    errcnt := (s.out e).errcnt + natWord weight
    stream := (s.out e).stream ++ [r] }

/-- `emit PROGRESS` (45_emitter.md R347): the progress register and the record. -/
def emitProgress (e : EngineId) (percent : Byte) (r : Record) (s : State) : State :=
  emit e r (s.setOut e { s.out e with progress := percent.setWidth 64 })

/-! ## Taking a condition: the END step (60_exceptions.md R412) -/

/-- Take the end of a run (45_emitter.md R349, 60_exceptions.md R412): the END record, and `STATE`, `CODE` and a cleared `CANCEL_PENDING` in
the status register, in one step. Nothing is saved for resumption; there is no return from it (60_exceptions.md R413). -/
def takeEnd (e : EngineId) (st : RunState) (code : FailCode) (r : Record) (s : State) : State :=
  setStatus e ⟨st, code, false⟩ (emit e r s)

/-! ## Operation words formed by a step -/

/-- Put operations in front of those waiting: they are carried out before anything else happens (log 7). -/
def form (is : List Instr) (s : State) : State := { s with ops := is.map encode ++ s.ops }

/-- The records of an END step: a final `PROGRESS 100` when the run ends DONE, then END with the counters
(42_onewire.md R203, 43_jtag_tap.md R259, 44_uart.md R311, 45_emitter.md R348). -/
def endRecords (st : RunState) (code : FailCode) (o : EngineOut) : List Instr :=
  (if st = .done then [Instr.progress 100#8] else []) ++ [Instr.endRun st.code code.code o.symcnt o.errcnt]

/-- Form the END step of an engine. -/
def formEnd (e : EngineId) (st : RunState) (code : FailCode) (s : State) : State :=
  form (endRecords st code (s.out e)) s

/-! ## Starting, refusing and cancelling a run (46_host_commands.md) -/

/-- A refused START (46_host_commands.md R385, 60_exceptions.md R405): the status register only. The result memory stays as it was, as
R385, R405 and vector HC-2 have it; D39 of 92_eei_decisions.md has it empty (DESIGN CHOICE between the two, log 28). -/
def refuseStart (e : EngineId) (s : State) : State := setStatus e ⟨.failed, .cfgInvalid, false⟩ s

/-- An accepted START (46_host_commands.md R382, R383) with what every START step does: counters and progress 0, result memory
empty (42_onewire.md R190, 43_jtag_tap.md R250, 44_uart.md R290); the stream is kept (45_emitter.md R340). -/
def acceptStart (e : EngineId) (s : State) : State :=
  { s.setOut e { s.out e with
      status := ⟨.running, .none, false⟩
      progress := 0#64
      symcnt := 0#64
      errcnt := 0#64
      result := [] } with cur := e }

/-- START (46_host_commands.md R382): ignored while RUNNING (R384), refused without `CFG_OK` (R385), else the engine's START step now. -/
def startEngine (e : EngineId) (ok : Bool) (startStep : State → Result) (s : State) : Result :=
  if s.running e then .next s
  else if ok then startStep (acceptStart e s)
  else .next (refuseStart e s)

/-- CANCEL (46_host_commands.md R387): raises the cancellation signal of a RUNNING engine. -/
def cancelEngine (e : EngineId) (s : State) : State :=
  if s.running e then setStatus e { (s.out e).status with cancelPending := true } s else s

/-- An illegal command word (46_host_commands.md R392, 60_exceptions.md R406): the sticky `CMD_INVALID`, nothing else. -/
def flagIllegalCommand (s : State) : State := { s with cmdInvalid := true }

/-- The answer of a standalone scanner command (46_host_commands.md R389, R390). -/
def storeAnswer (r : Option Hit) (s : State) : State :=
  match r with
  | some h => { s with prResIdx := natWord h.idx, prResTs := h.ts, prResVal := h.val.setWidth 64, prStat := 1#64 }
  | none => { s with prResIdx := 0#64, prResTs := 0#64, prResVal := 0#64, prStat := 2#64 }

/-! ## Block reset -/

/-- Block reset (70_reset_and_hazards.md R440): every register at its reset value, engines IDLE, streams and result memories empty; the
sample memory and its attributes stay; working registers have no defined value and are free values here (log 4). What the world
outside has yet to do stays in `inbox`. -/
def blockReset (s : State) : State where
  samples := s.samples
  sbRate := s.sbRate
  sbTrig := s.sbTrig
  cmdInvalid := false
  prT0 := 0#64
  prT1 := 0#64
  prMask := 0#64
  prDir := 0#64
  prResIdx := 0#64
  prResTs := 0#64
  prResVal := 0#64
  prStat := 0#64
  owConfig := OwConfig.reset
  owWork := Config.owAfterReset s.tick
  owOut := EngineOut.reset
  owPc := .idle
  jtConfig := JtConfig.reset
  jtWork := Config.jtAfterReset s.tick
  jtOut := EngineOut.reset
  jtPc := .idle
  uaConfig := UaConfig.reset
  uaWork := Config.uaAfterReset s.tick
  uaOut := EngineOut.reset
  uaPc := .idle
  cur := s.cur
  ops := []
  inbox := s.inbox
  hostReply := s.hostReply
  tick := s.tick + 1

/-! ## Register read and write (46_host_commands.md R381) -/

/-- The value of a named register. The bits of `PR_MASK` above 31 and of `PR_DIR` above 0 read as zero (10_state.md R40, R42; log 27). -/
def readNamed (s : State) (r : Reg) : Word :=
  match r with
  | .sbCount => natWord s.samples.length
  | .sbRate => s.sbRate
  | .sbTrig => s.sbTrig
  | .blkStatus => (BitVec.ofBool s.cmdInvalid).setWidth 64
  | .cmd => 0#64
  | .prT0 => s.prT0
  | .prT1 => s.prT1
  | .prMask => s.prMask &&& 0xFFFFFFFF#64
  | .prDir => s.prDir &&& 1#64
  | .prResIdx => s.prResIdx
  | .prResTs => s.prResTs
  | .prResVal => s.prResVal
  | .prStat => s.prStat
  | .owWinS => s.owConfig.winS
  | .owWinE => s.owConfig.winE
  | .owLine => s.owConfig.line
  | .owMode => s.owConfig.mode
  | .jtWinS => s.jtConfig.winS
  | .jtWinE => s.jtConfig.winE
  | .jtTck => s.jtConfig.tck
  | .jtTms => s.jtConfig.tms
  | .jtTdi => s.jtConfig.tdi
  | .jtTdo => s.jtConfig.tdo
  | .uaWinS => s.uaConfig.winS
  | .uaWinE => s.uaConfig.winE
  | .uaRxd => s.uaConfig.rxd
  | .uaTxd => s.uaConfig.txd
  | .uaCts => s.uaConfig.cts
  | .uaRts => s.uaConfig.rts
  | .uaDtr => s.uaConfig.dtr
  | .uaDsr => s.uaConfig.dsr
  | .uaDcd => s.uaConfig.dcd
  | .uaRi => s.uaConfig.ri
  | .uaFrame => s.uaConfig.frame
  | .uaBaud => s.uaConfig.baud
  | .status e => (s.out e).status.word
  | .progress e => (s.out e).progress
  | .symcnt e => (s.out e).symcnt
  | .errcnt e => (s.out e).errcnt
  | .profile mode w k => natWord (profileBound (Config.owProfile mode) w k)

/-- Register read: the current value, 0 for a hole; no side effect (46_host_commands.md R381). -/
def readReg (s : State) (number : Nat) : Word :=
  match regOf number with
  | some r => readNamed s r
  | none => 0#64

/-- The state after a write to a named register: a configuration register stores all 64 bits; `CMD` executes and stores nothing;
`BLK_STATUS` clears `CMD_INVALID` on a 1 in bit 0; a read-only register ignores the write (46_host_commands.md R381). -/
def writeNamed (r : Reg) (v : Word) (s : State) : State :=
  match r with
  | .cmd => { s with ops := .cmd v :: s.ops }
  | .blkStatus => { s with cmdInvalid := s.cmdInvalid && !v.getLsbD 0 }
  | .prT0 => { s with prT0 := v }
  | .prT1 => { s with prT1 := v }
  | .prMask => { s with prMask := v }
  | .prDir => { s with prDir := v }
  | .owWinS => { s with owConfig := { s.owConfig with winS := v } }
  | .owWinE => { s with owConfig := { s.owConfig with winE := v } }
  | .owLine => { s with owConfig := { s.owConfig with line := v } }
  | .owMode => { s with owConfig := { s.owConfig with mode := v } }
  | .jtWinS => { s with jtConfig := { s.jtConfig with winS := v } }
  | .jtWinE => { s with jtConfig := { s.jtConfig with winE := v } }
  | .jtTck => { s with jtConfig := { s.jtConfig with tck := v } }
  | .jtTms => { s with jtConfig := { s.jtConfig with tms := v } }
  | .jtTdi => { s with jtConfig := { s.jtConfig with tdi := v } }
  | .jtTdo => { s with jtConfig := { s.jtConfig with tdo := v } }
  | .uaWinS => { s with uaConfig := { s.uaConfig with winS := v } }
  | .uaWinE => { s with uaConfig := { s.uaConfig with winE := v } }
  | .uaRxd => { s with uaConfig := { s.uaConfig with rxd := v } }
  | .uaTxd => { s with uaConfig := { s.uaConfig with txd := v } }
  | .uaCts => { s with uaConfig := { s.uaConfig with cts := v } }
  | .uaRts => { s with uaConfig := { s.uaConfig with rts := v } }
  | .uaDtr => { s with uaConfig := { s.uaConfig with dtr := v } }
  | .uaDsr => { s with uaConfig := { s.uaConfig with dsr := v } }
  | .uaDcd => { s with uaConfig := { s.uaConfig with dcd := v } }
  | .uaRi => { s with uaConfig := { s.uaConfig with ri := v } }
  | .uaFrame => { s with uaConfig := { s.uaConfig with frame := v } }
  | .uaBaud => { s with uaConfig := { s.uaConfig with baud := v } }
  | .sbCount | .sbRate | .sbTrig => s
  | .prResIdx | .prResTs | .prResVal | .prStat => s
  | .status _ | .progress _ | .symcnt _ | .errcnt _ => s
  | .profile _ _ _ => s

/-- Register write: a hole ignores it (10_state.md R51). -/
def writeReg (number : Nat) (v : Word) (s : State) : State :=
  match regOf number with
  | some r => writeNamed r v s
  | none => s

end Sys2Proof.Machine
end

