-- ==== Sys2Proof/Machine/Jtag.lean ====
section
/-!
DEFINITION. The steps of the JTAG TAP engine (spec 43_jtag_tap.md R250 to R259). The TAP transition itself is an operation word, the
table row of the current state and the sampled TMS.
-/

namespace Sys2Proof.Machine

/-- The CLEAR records of a JTAG run, in the order TCK, TMS, TDI, TDO (43_jtag_tap.md R250). -/
def jtClears (w : JtWork) : List Instr :=
  [.clear w.tck, .clear w.tms] ++ (w.tdi.toList.map .clear) ++ (w.tdo.toList.map .clear)

/-- JTAG.START after the command has been accepted (43_jtag_tap.md R250). -/
def jtStart (s : State) : Result :=
  let c := s.jtConfig
  let w : JtWork := { s.jtWork with
    winS := c.winS.toNat
    winE := c.winE.toNat
    tck := chanByte c.tck
    tms := chanByte c.tms
    tdi := chanOf c.tdi
    tdo := chanOf c.tdo }
  .next (form (jtClears w) { s with jtWork := w, jtPc := .init })

/-- JTAG.INIT (43_jtag_tap.md R251). -/
def jtInit (s : State) : Result :=
  let w : JtWork := { s.jtWork with
    current := .testLogicReset
    previous := .testLogicReset
    spanStart := s.jtWork.winS
    tdiAcc := []
    tdoAcc := []
    shiftFirst := none
    shiftLast := none
    idx := s.jtWork.winS }
  if w.winS = w.winE then .next { s with jtWork := w, jtPc := .done }
  else
    match window s.samples w.winS w.winE with
    | some (t0, t1) => .next { s with jtWork := { w with tStart := t0, tEnd := t1 }, jtPc := .scan }
    | none => .fault .sampleIndexOutOfRange

/-- JTAG.SCAN (43_jtag_tap.md R252): the check point (60_exceptions.md R410), then the next rising edge of TCK. -/
def jtScan (s : State) : Result :=
  let w := s.jtWork
  if s.jtOut.status.cancelPending then .next { s with jtPc := .cancelled }
  else
    match s.samples[w.idx]? with
    | none => .fault .sampleIndexOutOfRange
    | some x =>
        match findEdge s.samples x.time w.tEnd (chanMask w.tck) .rising with
        | none => .next { s with jtPc := .done }
        | some a => .next { s with jtWork := { w with idx := a.idx }, jtPc := .step }

/-- JTAG.STEP (43_jtag_tap.md R253): sample TMS at the edge and take the table row of the current state. -/
def jtStepEdge (s : State) : Result :=
  match s.samples[s.jtWork.idx]? with
  | none => .fault .sampleIndexOutOfRange
  | some x =>
      .next (form [tapRow s.jtWork.current (active x.val (chanMask s.jtWork.tms))] { s with jtPc := .clear })

/-- JTAG.CLEAR (43_jtag_tap.md R254): entering a Capture state clears the accumulators. -/
def jtClear (s : State) : Result :=
  let w := s.jtWork
  if w.current = .captureDr ∨ w.current = .captureIr then
    .next { s with jtWork := { w with tdiAcc := [], tdoAcc := [], shiftFirst := none, shiftLast := none }, jtPc := .shift }
  else .next { s with jtPc := .shift }

/-- A line's bit-string with one more bit prepended; a line that is not present is never accumulated (43_jtag_tap.md R255). -/
def prependBit (val : ChannelBits) (line : Option Byte) (acc : List Bool) : List Bool :=
  match line with
  | some ch => active val (chanMask ch) :: acc
  | none => acc

/-- JTAG.SHIFT (43_jtag_tap.md R255): in a Shift state after the transition, one bit per present line. -/
def jtShift (s : State) : Result :=
  let w := s.jtWork
  if w.current = .shiftDr ∨ w.current = .shiftIr then
    match s.samples[w.idx]? with
    | none => .fault .sampleIndexOutOfRange
    | some x =>
        .next { s with
          jtWork := { w with
            shiftFirst := some (w.shiftFirst.getD w.idx)
            shiftLast := some w.idx
            tdiAcc := prependBit x.val w.tdi w.tdiAcc
            tdoAcc := prependBit x.val w.tdo w.tdoAcc }
          jtPc := .update }
  else .next { s with jtPc := .update }

/-- The JT_SHIFT records of an Update: TDI before TDO, one for each present line, none when no bit was shifted
(43_jtag_tap.md R256). -/
def jtShiftRecords (w : JtWork) : List Instr :=
  match w.shiftFirst, w.shiftLast with
  | some first, some last =>
      (w.tdi.toList.map (fun ch => Instr.jtShiftTdi ch (shiftBody first last w.tdiAcc)))
        ++ (w.tdo.toList.map (fun ch => Instr.jtShiftTdo ch (shiftBody first last w.tdoAcc)))
  | _, _ => []

/-- JTAG.UPDATE (43_jtag_tap.md R256). -/
def jtUpdate (s : State) : Result :=
  let w := s.jtWork
  if w.current = .updateDr ∨ w.current = .updateIr then .next (form (jtShiftRecords w) { s with jtPc := .span })
  else .next { s with jtPc := .span }

/-- JTAG.SPAN (43_jtag_tap.md R257): a change of state closes the open span at this index. -/
def jtSpan (s : State) : Result :=
  let w := s.jtWork
  if w.current ≠ w.previous then
    .next (form [.jtState w.tms w.previous (natWord w.spanStart) (natWord w.idx)]
      { s with jtWork := { w with spanStart := w.idx + 1, previous := w.current }, jtPc := .progress })
  else .next { s with jtPc := .progress }

/-- JTAG.PROGRESS (43_jtag_tap.md R258). -/
def jtProgress (s : State) : Result :=
  let w := s.jtWork
  .next (form [.progress (percentOf ((w.idx : Int) - w.winS) ((w.winE : Int) - w.winS))] { s with jtPc := .scan })

/-- The step of the JTAG engine that `jtPc` names. -/
def jtStep (s : State) : Result :=
  match s.jtPc with
  | .idle => .next s
  | .init => jtInit s
  | .scan => jtScan s
  | .step => jtStepEdge s
  | .clear => jtClear s
  | .shift => jtShift s
  | .update => jtUpdate s
  | .span => jtSpan s
  | .progress => jtProgress s
  | .done => .next (formEnd .jtag .done .none { s with jtPc := .idle })
  | .cancelled => .next (formEnd .jtag .cancelled .none { s with jtPc := .idle })

end Sys2Proof.Machine
end

