-- ==== Sys2Proof/Machine/OneWire.lean ====
section
/-!
DEFINITION. The steps of the 1-Wire engine (spec 42_onewire.md). No step has an encoding (30_encoding.md R111); each is one rule,
named by `owPc`, and the records and the pulse class it produces are operation words carried out before anything else.
-/

namespace Sys2Proof.Machine

/-- OW.START after the command has been accepted (42_onewire.md R190, R191): latch the configuration and the profile, derive the
frame lengths, the window as times if it is not empty, and the CLEAR record. -/
def owStart (s : State) : Result :=
  let c := s.owConfig
  let p := Config.owProfile (owModeOf c.mode)
  let w : OwWork := { s.owWork with
    winS := c.winS.toNat
    winE := c.winE.toNat
    line := chanByte c.line
    mode := owModeOf c.mode
    mask := chanMask (chanByte c.line)
    profile := p
    bitTicks := ticks s.sbRate (bitFrame p)
    resetTicks := ticks s.sbRate (resetFrame p) }
  if c.winS.toNat < c.winE.toNat then
    match window s.samples c.winS.toNat c.winE.toNat with
    | some (t0, t1) =>
        .next (form [.clear w.line] { s with owWork := { w with tStart := t0, tEnd := t1 }, owPc := .init })
    | none => .fault .sampleIndexOutOfRange
  else .next (form [.clear w.line] { s with owWork := w, owPc := .init })

/-- OW.INIT (42_onewire.md R192): the idle search; without an idle sample the fatal end NoIdleStateFound (60_exceptions.md R401). -/
def owInit (s : State) : Result :=
  match firstActive s.samples s.owWork.winS s.owWork.winE s.owWork.mask with
  | none => .next (formEnd .ow .failed .noIdle { s with owPc := .idle })
  | some h =>
      .next { s with
        owWork := { s.owWork with bitCount := 8, byteValue := 0#8, byteStart := none, cursor := h.time }
        owPc := .loop }

/-- OW.LOOP (42_onewire.md R193): the check point (60_exceptions.md R410), then the loop condition. -/
def owLoop (s : State) : Result :=
  if s.owOut.status.cancelPending then .next { s with owPc := .cancelled }
  else if s.owWork.cursor < s.owWork.tEnd then .next { s with owPc := .scan }
  else .next { s with owPc := .done }

/-- OW.SCAN (42_onewire.md R194): the next low pulse, its width, and the class that names its handler (R195). -/
def owScan (s : State) : Result :=
  let w := s.owWork
  match findEdge s.samples w.cursor w.tEnd w.mask .falling with
  | none => .next { s with owPc := .done }
  | some a =>
      let r := match findEdge s.samples a.time w.tEnd w.mask .rising with
        | none => w.tEnd
        | some b => b.time
      .next (form [classInstr (classify w.profile (us s.sbRate (r - a.time)))]
        { s with owWork := { w with f := a.time, r := r } })

/-- OW.RESET (42_onewire.md R197): presence (R196), the record, the accumulator cleared, the cursor past the reset frame. -/
def owReset (s : State) : Result :=
  let w := s.owWork
  let next := w.f + w.resetTicks
  let present := presence s.samples s.sbRate w.mask w.profile w.f (min next w.tEnd)
  .next (form [.owReset w.line present (intWord w.f) (intWord w.r)]
    { s with owWork := { w with bitCount := 8, byteValue := 0#8, byteStart := none, cursor := next }, owPc := .progress })

/-- The accumulator after one more bit: shift right, the bit enters at bit 7 (42_onewire.md R198, R199). -/
def shiftInBit (value : Byte) (bit : Bool) : Byte := (value >>> 1) ||| (if bit then 0x80#8 else 0#8)

/-- A bit of a byte (42_onewire.md R198, R199) and, on the eighth, OW.BYTE (R201). -/
def owBit (bit : Bool) (s : State) : Result :=
  let w := s.owWork
  let start := if w.bitCount = 8 then some w.f else w.byteStart
  let value := shiftInBit w.byteValue bit
  let cursor := w.f + w.bitTicks
  if w.bitCount = 1 then
    .next (form [.owByte w.line value (intWord (start.getD w.f)) (intWord cursor)]
      { s with owWork := { w with bitCount := 8, byteValue := 0#8, byteStart := none, cursor := cursor }, owPc := .progress })
  else
    .next { s with
      owWork := { w with bitCount := w.bitCount - 1, byteValue := value, byteStart := start, cursor := cursor }
      owPc := .progress }

/-- OW.ZERO (42_onewire.md R198). -/
def owZero (s : State) : Result := owBit false s

/-- OW.ONE (42_onewire.md R199). -/
def owOne (s : State) : Result := owBit true s

/-- OW.UNKNOWN (42_onewire.md R200, 60_exceptions.md R402): the bus error at the byte's start, or at the pulse; the cursor stays at the
falling edge. -/
def owUnknown (s : State) : Result :=
  let w := s.owWork
  let t := if w.bitCount < 8 then w.byteStart.getD w.f else w.f
  .next (form [.owBusError w.line (intWord t) (intWord t)]
    { s with owWork := { w with bitCount := 8, byteValue := 0#8, byteStart := none, cursor := w.f }, owPc := .progress })

/-- OW.PROGRESS (42_onewire.md R202). -/
def owProgress (s : State) : Result :=
  let w := s.owWork
  .next (form [.progress (percentOf (w.cursor - w.tStart) (w.tEnd - w.tStart))] { s with owPc := .loop })

/-- The step of the 1-Wire engine that `owPc` names. -/
def owStep (s : State) : Result :=
  match s.owPc with
  | .idle => .next s
  | .init => owInit s
  | .loop => owLoop s
  | .scan => owScan s
  | .reset => owReset s
  | .zero => owZero s
  | .one => owOne s
  | .unknown => owUnknown s
  | .progress => owProgress s
  | .done => .next (formEnd .ow .done .none { s with owPc := .idle })
  | .cancelled => .next (formEnd .ow .cancelled .none { s with owPc := .idle })

end Sys2Proof.Machine
end

