-- ==== Sys2Proof/Machine/Uart.lean ====
section
/-!
DEFINITION. The steps of the UART engine (spec 44_uart.md R290 to R311).
-/

namespace Sys2Proof.Machine

/-- The first step of a lane's loop: UART.LANE for a data lane, UART.HS for a handshake lane (44_uart.md R293, R306). -/
def laneLoop (k : LaneKind) : UaPc := if isDataLane k then .lane else .hs

/-- The lane being decoded (10_state.md R27). -/
def currentLane (w : UaWork) : Option Lane := w.lanes[w.lane]?

/-- UART.START after the command has been accepted (44_uart.md R290, R291). -/
def uaStart (s : State) : Result :=
  let c := s.uaConfig
  let w : UaWork := { s.uaWork with
    winS := c.winS.toNat
    winE := c.winE.toNat
    frame := c.frame
    baud := c.baud
    lanes := lanesOf c }
  let clears := w.lanes.map (fun l => Instr.clear l.chan)
  match w.lanes with
  | [] => .next (form clears { s with uaWork := w, uaPc := .done })
  | l :: _ =>
      if w.winS = w.winE then .next (form clears { s with uaWork := w, uaPc := .done })
      else
        match window s.samples w.winS w.winE with
        | some (t0, t1) =>
            .next (form clears
              { s with uaWork := { w with tStart := t0, tEnd := t1, lane := 0, cursor := t0 }, uaPc := laneLoop l.kind })
        | none => .fault .sampleIndexOutOfRange

/-- The direction from the idle to the active level (44_uart.md R294). -/
def startDir (inv : Bool) : EdgeDir := if inv then .rising else .falling

/-- The direction back to the idle level (44_uart.md R295). -/
def stopDir (inv : Bool) : EdgeDir := if inv then .falling else .rising

/-- UART.LANE (44_uart.md R293): the check point (60_exceptions.md R410), then the loop condition. -/
def uaLane (s : State) : Result :=
  if s.uaOut.status.cancelPending then .next { s with uaPc := .cancelled }
  else if s.uaWork.cursor < s.uaWork.tEnd then .next { s with uaPc := .startBit }
  else .next { s with uaPc := .nextLane }

/-- UART.STARTBIT (44_uart.md R294). -/
def uaStartBit (s : State) : Result :=
  let w := s.uaWork
  match currentLane w with
  | none => .fault .laneOutOfRange
  | some l =>
      match findEdge s.samples w.cursor w.tEnd (chanMask l.chan) (startDir (frameInvert w.frame)) with
      | none => .next { s with uaPc := .nextLane }
      | some a => .next { s with uaWork := { w with t0 := a.time }, uaPc := .cell }

/-- UART.CELL (44_uart.md R295): the rate over the configured baud, or the measured start pulse. -/
def uaCell (s : State) : Result :=
  let w := s.uaWork
  if w.baud ≠ 0#64 then
    .next { s with uaWork := { w with cell := ⟨s.sbRate.toNat, w.baud.toNat⟩ }, uaPc := .fit }
  else
    match currentLane w with
    | none => .fault .laneOutOfRange
    | some l =>
        match findEdge s.samples w.t0 w.tEnd (chanMask l.chan) (stopDir (frameInvert w.frame)) with
        | none => .next { s with uaPc := .nextLane }
        | some b => .next { s with uaWork := { w with cell := ⟨b.time - w.t0, 1⟩ }, uaPc := .fit }

/-- The parity setting of the latched frame format; a START is accepted with a legal one only. -/
def uaParityOf (w : UaWork) : Parity := (frameParity w.frame).getD .none

/-- The stop-bit setting of the latched frame format; a START is accepted with a legal one only. -/
def uaStopOf (w : UaWork) : StopBits := (frameStop w.frame).getD .one

/-- The sample instants of the stop period (44_uart.md R296). -/
def stopTimes (w : UaWork) : List Int :=
  (stopPositions (frameBits w.frame) (parityCells (uaParityOf w)) (uaStopOf w)).map (sampleTime w.t0 w.cell)

/-- The sample instants of the data bits (44_uart.md R296). -/
def dataTimes (w : UaWork) : List Int := (dataPositions (frameBits w.frame)).map (sampleTime w.t0 w.cell)

/-- The sample instant of the parity bit, at `n + 3/2` cells (44_uart.md R296). -/
def parityTime (w : UaWork) : Int := sampleTime w.t0 w.cell (4 * frameBits w.frame + 6)

/-- Frame inside the window (44_uart.md R297): the last stop sample is before the window's end, or the lane ends. -/
def uaFit (s : State) : Result :=
  let w := s.uaWork
  let last := (stopTimes w).getLastD w.t0
  if w.tEnd ≤ last then .next { s with uaWork := { w with tLast := last }, uaPc := .nextLane }
  else .next { s with uaWork := { w with tLast := last }, uaPc := .data }

/-- The levels of a channel at several instants; `none` where an instant lies before the first entry. -/
def levels (m : Memory) (chan : Byte) (ts : List Int) : Option (List Bool) :=
  match ts with
  | [] => some []
  | t :: rest =>
      match level m t chan, levels m chan rest with
      | some b, some bs => some (b :: bs)
      | _, _ => none

/-- UART.DATA (44_uart.md R298): the levels at the data instants, inverted when configured, first bit lowest. -/
def uaData (s : State) : Result :=
  let w := s.uaWork
  match currentLane w with
  | none => .fault .laneOutOfRange
  | some l =>
      match levels s.samples l.chan (dataTimes w) with
      | none => .fault .levelBeforeFirstSample
      | some bs =>
          .next { s with
            uaWork := { w with value := assembleLsbFirst (bs.map (fun b => b ^^ frameInvert w.frame)) }
            uaPc := .parity }

/-- UART.PARITY (44_uart.md R299, R300): sample and check the parity bit, if one is configured. -/
def uaParity (s : State) : Result :=
  let w := s.uaWork
  match uaParityOf w with
  | .none => .next { s with uaWork := { w with pe := false }, uaPc := .stop }
  | par =>
      match currentLane w with
      | none => .fault .laneOutOfRange
      | some l =>
          match level s.samples (parityTime w) l.chan with
          | none => .fault .levelBeforeFirstSample
          | some b =>
              let pbit := b ^^ frameInvert w.frame
              .next { s with uaWork := { w with pbit := pbit, pe := parityError par w.value pbit }, uaPc := .stop }

/-- UART.STOP (44_uart.md R301, R302): sample the stop period and check it against the idle level. -/
def uaStop (s : State) : Result :=
  let w := s.uaWork
  match currentLane w with
  | none => .fault .laneOutOfRange
  | some l =>
      match levels s.samples l.chan (stopTimes w) with
      | none => .fault .levelBeforeFirstSample
      | some bs => .next { s with uaWork := { w with fe := frameError (frameInvert w.frame) bs }, uaPc := .emit }

/-- UART.EMIT (44_uart.md R303): the Data symbol of the lane's direction. -/
def uaEmit (s : State) : Result :=
  let w := s.uaWork
  match currentLane w with
  | none => .fault .laneOutOfRange
  | some l =>
      let go (i : Instr) : Result := .next (form [i] { s with uaPc := .resume })
      match l.kind with
      | .rx => go (.uaDataRx l.chan w.value w.pe w.fe (intWord w.t0) (intWord w.tLast))
      | .tx => go (.uaDataTx l.chan w.value w.pe w.fe (intWord w.t0) (intWord w.tLast))
      | .cts | .rts | .dtr | .dsr | .dcd | .ri => .fault .laneOutOfRange

/-- UART.RESUME (44_uart.md R304): the cursor at the last stop sample. -/
def uaResume (s : State) : Result :=
  .next { s with uaWork := { s.uaWork with cursor := s.uaWork.tLast }, uaPc := .progress }

/-- The earlier of two answers with its level: 1 for the rising one (44_uart.md R306). -/
def firstEvent (rise fall : Option Hit) : Option (Int × Bool) :=
  match rise, fall with
  | none, none => none
  | some a, none => some (a.time, true)
  | none, some b => some (b.time, false)
  | some a, some b => if a.time < b.time then some (a.time, true) else some (b.time, false)

/-- UART.HS (44_uart.md R306): the check point (60_exceptions.md R410), then the next change of the line. -/
def uaHs (s : State) : Result :=
  let w := s.uaWork
  if s.uaOut.status.cancelPending then .next { s with uaPc := .cancelled }
  else
    match currentLane w with
    | none => .fault .laneOutOfRange
    | some l =>
        match firstEvent (findEdge s.samples w.cursor w.tEnd (chanMask l.chan) .rising)
            (findEdge s.samples w.cursor w.tEnd (chanMask l.chan) .falling) with
        | none => .next { s with uaPc := .nextLane }
        | some (t, high) => .next { s with uaWork := { w with evTime := t, evLevel := high }, uaPc := .hsEvent }

/-- UART.HSEVENT (44_uart.md R307) and the cursor at the event (R308). -/
def uaHsEvent (s : State) : Result :=
  let w := s.uaWork
  match currentLane w with
  | none => .fault .laneOutOfRange
  | some l =>
      .next (form [.uaEvent l.chan (labelCode l.kind w.evLevel) (intWord w.evTime) (intWord w.evTime)]
        { s with uaWork := { w with cursor := w.evTime }, uaPc := .progress })

/-- UART.PROGRESS (44_uart.md R305), then back to the loop of the lane. -/
def uaProgress (s : State) : Result :=
  let w := s.uaWork
  match currentLane w with
  | none => .fault .laneOutOfRange
  | some l =>
      .next (form [.progress (lanePercent w.lane w.lanes.length (w.cursor - w.tStart) (w.tEnd - w.tStart))]
        { s with uaPc := laneLoop l.kind })

/-- UART.NEXTLANE (44_uart.md R310). -/
def uaNextLane (s : State) : Result :=
  let w := s.uaWork
  match w.lanes[w.lane + 1]? with
  | none => .next { s with uaWork := { w with lane := w.lane + 1 }, uaPc := .done }
  | some l => .next { s with uaWork := { w with lane := w.lane + 1, cursor := w.tStart }, uaPc := laneLoop l.kind }

/-- The step of the UART engine that `uaPc` names. -/
def uaStep (s : State) : Result :=
  match s.uaPc with
  | .idle => .next s
  | .lane => uaLane s
  | .startBit => uaStartBit s
  | .cell => uaCell s
  | .fit => uaFit s
  | .data => uaData s
  | .parity => uaParity s
  | .stop => uaStop s
  | .emit => uaEmit s
  | .resume => uaResume s
  | .hs => uaHs s
  | .hsEvent => uaHsEvent s
  | .progress => uaProgress s
  | .nextLane => uaNextLane s
  | .done => .next (formEnd .uart .done .none { s with uaPc := .idle })
  | .cancelled => .next (formEnd .uart .cancelled .none { s with uaPc := .idle })

end Sys2Proof.Machine
end

