-- ==== Sys2Proof/Machine/Actions.lean ====
section
/-!
DEFINITION. What moves the block between operation words: fetching the next operation word, the actions of the world outside
(spec 46_host_commands.md R380, R393), and the turns of the engines (00_scope.md R7, 20_memory.md R92).
-/

namespace Sys2Proof.Machine

/-- The next operation word and the state without it; `none` when none waits. -/
def fetch (s : State) : Option (OpWord × State) :=
  match s.ops with
  | [] => none
  | w :: rest => some (w, { s with ops := rest })

/-- The operation of a word, when it names one and its fields hold values the spec gives (30_encoding.md R125). -/
def readWord (w : OpWord) : Option Instr :=
  match decode w with
  | .ok i => if i.wf then some i else none
  | .error _ => none

/-- A word that names no operation: an illegal command sets `CMD_INVALID` (46_host_commands.md R392); any other is one the block
never produces (93 U9). -/
def rejectWord (w : OpWord) (s : State) : Result :=
  match w with
  | .cmd _ => .next (flagIllegalCommand s)
  | .record _ => .fault .malformedRecord
  | .tap _ => .fault .malformedRecord
  | .cls _ => .fault .malformedRecord

/-- The next step of an engine, if it is RUNNING; otherwise no step of it is enabled (10_state.md R29). -/
def engineTurn (e : EngineId) (s : State) : Result :=
  if s.running e then
    match e with
    | .ow => owStep { s with cur := .ow }
    | .jtag => jtStep { s with cur := .jtag }
    | .uart => uaStep { s with cur := .uart }
  else .next s

/-- The RUNNING engines. -/
def runningEngines (s : State) : List EngineId := [EngineId.ow, .jtag, .uart].filter s.running

/-- Remove the record at the head of an engine's stream and hand it to the host; an empty stream gives nothing
(46_host_commands.md R393). -/
def consumeRecord (e : EngineId) (s : State) : State :=
  match (s.out e).stream with
  | [] => { s with hostReply := [] }
  | r :: rest => { s.setOut e { s.out e with stream := rest } with hostReply := r }

/-- Hand a record of the result memory to the host; reading removes nothing (46_host_commands.md R393). -/
def readResultAt (e : EngineId) (position : Nat) (s : State) : State :=
  { s with hostReply := (s.out e).result.getD position [] }

/-- The acquisition puts a capture in place; while an engine is RUNNING that is outside the model (93 U6). -/
def loadCapture (samples : Memory) (rate trigger : Word) (s : State) : Result :=
  if (runningEngines s).isEmpty then .next { s with samples := samples, sbRate := rate, sbTrig := trigger }
  else .fault .captureChangedWhileRunning

/-- One action of the world outside, or the turn of an engine (46_host_commands.md R380). -/
def act (a : HostAct) (s : State) : Result :=
  match a with
  | .readReg number => .next { s with hostReply := [readReg s number] }
  | .writeReg number v => .next (writeReg number v s)
  | .consume e => .next (consumeRecord e s)
  | .readResult e position => .next (readResultAt e position s)
  | .resetInput => .next (blockReset s)
  | .capture samples rate trigger => loadCapture samples rate trigger s
  | .turn e => engineTurn e s

/-- What happens when no operation word waits: the next outside action; without one, a step of a RUNNING engine, a free choice
when several are (93 U13); without one, nothing. -/
def betweenWords (s : State) : Result :=
  match s.inbox with
  | a :: rest => act a { s with inbox := rest }
  | [] =>
      match runningEngines s with
      | [] => .next s
      | [e] => engineTurn e s
      | es => engineTurn (es.getD (Config.arbiter s.tick % es.length) .ow) { s with tick := s.tick + 1 }

end Sys2Proof.Machine
end

