-- ==== Sys2Proof/Machine/Classes.lean ====
section
/-!
DEFINITION. The four pulse classes (spec 41_timing_classifier.md R176 to R179), one meaning per row of format CLS: the classifier's outcome
sends the 1-Wire engine to the handler of the class (42_onewire.md R194, R195).
-/

namespace Sys2Proof.Machine

/-- Go to a handler (42_onewire.md R195). -/
def owGoto (pc : OwPc) (s : State) : State := { s with owPc := pc }

/-- `CLS.UNKNOWN` (41_timing_classifier.md R179): to the handler of 42_onewire.md R200. -/
def execClsUnknown (s : State) : Result := .next (owGoto .unknown s)

/-- `CLS.ONE` (41_timing_classifier.md R178): to the handler of 42_onewire.md R199. -/
def execClsOne (s : State) : Result := .next (owGoto .one s)

/-- `CLS.ZERO` (41_timing_classifier.md R177): to the handler of 42_onewire.md R198. -/
def execClsZero (s : State) : Result := .next (owGoto .zero s)

/-- `CLS.RESET` (41_timing_classifier.md R176): to the handler of 42_onewire.md R197. -/
def execClsReset (s : State) : Result := .next (owGoto .reset s)

end Sys2Proof.Machine
end

