-- ==== Sys2Proof/Machine/Commands.lean ====
section
/-!
DEFINITION. The nine host commands (spec 46_host_commands.md R382 to R391), one meaning per row of format CMD.
-/

namespace Sys2Proof.Machine

/-- `START.OW` (46_host_commands.md R382, 42_onewire.md R190). -/
def execStartOw (s : State) : Result := startEngine .ow (owConfigOk s) owStart s

/-- `START.JTAG` (46_host_commands.md R382, 43_jtag_tap.md R250). -/
def execStartJtag (s : State) : Result := startEngine .jtag (jtConfigOk s) jtStart s

/-- `START.UART` (46_host_commands.md R382, 44_uart.md R290). -/
def execStartUart (s : State) : Result := startEngine .uart (uaConfigOk s) uaStart s

/-- `CANCEL.OW` (46_host_commands.md R387). -/
def execCancelOw (s : State) : Result := .next (cancelEngine .ow s)

/-- `CANCEL.JTAG` (46_host_commands.md R387). -/
def execCancelJtag (s : State) : Result := .next (cancelEngine .jtag s)

/-- `CANCEL.UART` (46_host_commands.md R387). -/
def execCancelUart (s : State) : Result := .next (cancelEngine .uart s)

/-- `VALUE_AT` (46_host_commands.md R389): the lookup at `PR_T0`. -/
def execValueAt (s : State) : Result := .next (storeAnswer (valueAt s.samples s.prT0.toInt) s)

/-- `FIND_EDGE` (46_host_commands.md R390): the search over `(PR_T0, PR_T1)` with `PR_MASK` 31:0 and `PR_DIR` bit 0. -/
def execFindEdge (s : State) : Result :=
  .next (storeAnswer (findEdge s.samples s.prT0.toInt s.prT1.toInt (s.prMask.setWidth 32) (dirOf s.prDir)) s)

/-- `RESET` (46_host_commands.md R391): the block reset. -/
def execReset (s : State) : Result := .next (blockReset s)

end Sys2Proof.Machine
end

