-- ==== Sys2Proof/Machine/Records.lean ====
section
/-!
DEFINITION. The record operations (spec 45_emitter.md R344 to R356), one meaning per row of format REC: what emitting the record does. CLEAR,
PROGRESS and END belong to the engine executing the step (R340); a symbol's kind names its engine (30_encoding.md R115).
-/

namespace Sys2Proof.Machine

/-- `CLEAR` (45_emitter.md R344). -/
def execClear (chan : Byte) (s : State) : Result := .next (emit s.cur (recordWords (.clear chan)) s)

/-- `PROGRESS` (45_emitter.md R347). -/
def execProgress (percent : Byte) (s : State) : Result :=
  .next (emitProgress s.cur percent (recordWords (.progress percent)) s)

/-- `END` (45_emitter.md R349): a record whose codes the block never produces is malformed (93 U9). -/
def execEndRun (st code : Byte) (sym err : Word) (s : State) : Result :=
  match RunState.ofCode st, FailCode.ofCode code with
  | some rs, some fc => .next (takeEnd s.cur rs fc (recordWords (.endRun st code sym err)) s)
  | _, _ => .fault .malformedRecord

/-- `OW_RESET` (45_emitter.md R350). -/
def execOwReset (chan : Byte) (present : Bool) (start stop : Word) (s : State) : Result :=
  let i := Instr.owReset chan present start stop
  .next (appendSymbol .ow (recordWords i) (errorWeight i) s)

/-- `OW_BYTE` (45_emitter.md R351). -/
def execOwByte (chan value : Byte) (start stop : Word) (s : State) : Result :=
  let i := Instr.owByte chan value start stop
  .next (appendSymbol .ow (recordWords i) (errorWeight i) s)

/-- `OW_BUSERROR` (45_emitter.md R352). -/
def execOwBusError (chan : Byte) (start stop : Word) (s : State) : Result :=
  let i := Instr.owBusError chan start stop
  .next (appendSymbol .ow (recordWords i) (errorWeight i) s)

/-- `JT_STATE` (45_emitter.md R353). -/
def execJtState (chan : Byte) (state : TapState) (start stop : Word) (s : State) : Result :=
  let i := Instr.jtState chan state start stop
  .next (appendSymbol .jtag (recordWords i) (errorWeight i) s)

/-- `JT_SHIFT.TDI` (45_emitter.md R354). -/
def execJtShiftTdi (chan : Byte) (body : List Word) (s : State) : Result :=
  let i := Instr.jtShiftTdi chan body
  .next (appendSymbol .jtag (recordWords i) (errorWeight i) s)

/-- `JT_SHIFT.TDO` (45_emitter.md R354). -/
def execJtShiftTdo (chan : Byte) (body : List Word) (s : State) : Result :=
  let i := Instr.jtShiftTdo chan body
  .next (appendSymbol .jtag (recordWords i) (errorWeight i) s)

/-- `UA_DATA.RX` (45_emitter.md R355). -/
def execUaDataRx (chan value : Byte) (pe fe : Bool) (start stop : Word) (s : State) : Result :=
  let i := Instr.uaDataRx chan value pe fe start stop
  .next (appendSymbol .uart (recordWords i) (errorWeight i) s)

/-- `UA_DATA.TX` (45_emitter.md R355). -/
def execUaDataTx (chan value : Byte) (pe fe : Bool) (start stop : Word) (s : State) : Result :=
  let i := Instr.uaDataTx chan value pe fe start stop
  .next (appendSymbol .uart (recordWords i) (errorWeight i) s)

/-- `UA_EVENT` (45_emitter.md R356). -/
def execUaEvent (chan : Byte) (label : BitVec 4) (start stop : Word) (s : State) : Result :=
  let i := Instr.uaEvent chan label start stop
  .next (appendSymbol .uart (recordWords i) (errorWeight i) s)

end Sys2Proof.Machine
end

