-- ==== Sys2Proof/Machine/Tap.lean ====
section
/-!
DEFINITION. The 32 rows of the TAP transition table (spec 43_jtag_tap.md R231 to R246), one meaning per row of format TAP: the
controller moves to the row's next state (R253 `jt.current <- TAP_NEXT(jt.current, tms)`). The row index carries the state it starts
from (30_encoding.md R121).
-/

namespace Sys2Proof.Machine

/-- Move the TAP controller (43_jtag_tap.md R253). -/
def tapMove (t : TapState) (s : State) : State := { s with jtWork := { s.jtWork with current := t } }

/-- `TAP.NEXT.TEST_LOGIC_RESET.0` (43_jtag_tap.md R231): to RUN_TEST_IDLE. -/
def execTapTestLogicReset0 (s : State) : Result := .next (tapMove .runTestIdle s)

/-- `TAP.NEXT.TEST_LOGIC_RESET.1` (43_jtag_tap.md R231): to TEST_LOGIC_RESET. -/
def execTapTestLogicReset1 (s : State) : Result := .next (tapMove .testLogicReset s)

/-- `TAP.NEXT.RUN_TEST_IDLE.0` (43_jtag_tap.md R232): to RUN_TEST_IDLE. -/
def execTapRunTestIdle0 (s : State) : Result := .next (tapMove .runTestIdle s)

/-- `TAP.NEXT.RUN_TEST_IDLE.1` (43_jtag_tap.md R232): to SELECT_DR. -/
def execTapRunTestIdle1 (s : State) : Result := .next (tapMove .selectDr s)

/-- `TAP.NEXT.SELECT_DR.0` (43_jtag_tap.md R233): to CAPTURE_DR. -/
def execTapSelectDr0 (s : State) : Result := .next (tapMove .captureDr s)

/-- `TAP.NEXT.SELECT_DR.1` (43_jtag_tap.md R233): to SELECT_IR. -/
def execTapSelectDr1 (s : State) : Result := .next (tapMove .selectIr s)

/-- `TAP.NEXT.CAPTURE_DR.0` (43_jtag_tap.md R234): to SHIFT_DR. -/
def execTapCaptureDr0 (s : State) : Result := .next (tapMove .shiftDr s)

/-- `TAP.NEXT.CAPTURE_DR.1` (43_jtag_tap.md R234): to EXIT1_DR. -/
def execTapCaptureDr1 (s : State) : Result := .next (tapMove .exit1Dr s)

/-- `TAP.NEXT.SHIFT_DR.0` (43_jtag_tap.md R235): to SHIFT_DR. -/
def execTapShiftDr0 (s : State) : Result := .next (tapMove .shiftDr s)

/-- `TAP.NEXT.SHIFT_DR.1` (43_jtag_tap.md R235): to EXIT1_DR. -/
def execTapShiftDr1 (s : State) : Result := .next (tapMove .exit1Dr s)

/-- `TAP.NEXT.EXIT1_DR.0` (43_jtag_tap.md R236): to PAUSE_DR. -/
def execTapExit1Dr0 (s : State) : Result := .next (tapMove .pauseDr s)

/-- `TAP.NEXT.EXIT1_DR.1` (43_jtag_tap.md R236): to UPDATE_DR. -/
def execTapExit1Dr1 (s : State) : Result := .next (tapMove .updateDr s)

/-- `TAP.NEXT.PAUSE_DR.0` (43_jtag_tap.md R237): to PAUSE_DR. -/
def execTapPauseDr0 (s : State) : Result := .next (tapMove .pauseDr s)

/-- `TAP.NEXT.PAUSE_DR.1` (43_jtag_tap.md R237): to EXIT2_DR. -/
def execTapPauseDr1 (s : State) : Result := .next (tapMove .exit2Dr s)

/-- `TAP.NEXT.EXIT2_DR.0` (43_jtag_tap.md R238): to SHIFT_DR. -/
def execTapExit2Dr0 (s : State) : Result := .next (tapMove .shiftDr s)

/-- `TAP.NEXT.EXIT2_DR.1` (43_jtag_tap.md R238): to UPDATE_DR. -/
def execTapExit2Dr1 (s : State) : Result := .next (tapMove .updateDr s)

/-- `TAP.NEXT.UPDATE_DR.0` (43_jtag_tap.md R239): to RUN_TEST_IDLE. -/
def execTapUpdateDr0 (s : State) : Result := .next (tapMove .runTestIdle s)

/-- `TAP.NEXT.UPDATE_DR.1` (43_jtag_tap.md R239): to SELECT_DR. -/
def execTapUpdateDr1 (s : State) : Result := .next (tapMove .selectDr s)

/-- `TAP.NEXT.SELECT_IR.0` (43_jtag_tap.md R240): to CAPTURE_IR. -/
def execTapSelectIr0 (s : State) : Result := .next (tapMove .captureIr s)

/-- `TAP.NEXT.SELECT_IR.1` (43_jtag_tap.md R240): to TEST_LOGIC_RESET. -/
def execTapSelectIr1 (s : State) : Result := .next (tapMove .testLogicReset s)

/-- `TAP.NEXT.CAPTURE_IR.0` (43_jtag_tap.md R241): to SHIFT_IR. -/
def execTapCaptureIr0 (s : State) : Result := .next (tapMove .shiftIr s)

/-- `TAP.NEXT.CAPTURE_IR.1` (43_jtag_tap.md R241): to EXIT1_IR. -/
def execTapCaptureIr1 (s : State) : Result := .next (tapMove .exit1Ir s)

/-- `TAP.NEXT.SHIFT_IR.0` (43_jtag_tap.md R242): to SHIFT_IR. -/
def execTapShiftIr0 (s : State) : Result := .next (tapMove .shiftIr s)

/-- `TAP.NEXT.SHIFT_IR.1` (43_jtag_tap.md R242): to EXIT1_IR. -/
def execTapShiftIr1 (s : State) : Result := .next (tapMove .exit1Ir s)

/-- `TAP.NEXT.EXIT1_IR.0` (43_jtag_tap.md R243): to PAUSE_IR. -/
def execTapExit1Ir0 (s : State) : Result := .next (tapMove .pauseIr s)

/-- `TAP.NEXT.EXIT1_IR.1` (43_jtag_tap.md R243): to UPDATE_IR. -/
def execTapExit1Ir1 (s : State) : Result := .next (tapMove .updateIr s)

/-- `TAP.NEXT.PAUSE_IR.0` (43_jtag_tap.md R244): to PAUSE_IR. -/
def execTapPauseIr0 (s : State) : Result := .next (tapMove .pauseIr s)

/-- `TAP.NEXT.PAUSE_IR.1` (43_jtag_tap.md R244): to EXIT2_IR. -/
def execTapPauseIr1 (s : State) : Result := .next (tapMove .exit2Ir s)

/-- `TAP.NEXT.EXIT2_IR.0` (43_jtag_tap.md R245): to SHIFT_IR. -/
def execTapExit2Ir0 (s : State) : Result := .next (tapMove .shiftIr s)

/-- `TAP.NEXT.EXIT2_IR.1` (43_jtag_tap.md R245): to UPDATE_IR. -/
def execTapExit2Ir1 (s : State) : Result := .next (tapMove .updateIr s)

/-- `TAP.NEXT.UPDATE_IR.0` (43_jtag_tap.md R246): to RUN_TEST_IDLE. -/
def execTapUpdateIr0 (s : State) : Result := .next (tapMove .runTestIdle s)

/-- `TAP.NEXT.UPDATE_IR.1` (43_jtag_tap.md R246): to SELECT_DR. -/
def execTapUpdateIr1 (s : State) : Result := .next (tapMove .selectDr s)

end Sys2Proof.Machine
end

