-- ==== Sys2Proof/Machine/Dispatch.lean ====
section
/-!
DEFINITION. The meaning of every row of spec/opcode_table.json, one arm per constructor of `Instr`.
-/

namespace Sys2Proof.Machine

def exec (i : Instr) (s : State) : Host.Outcome State Fault Refusal :=
  match i with
  | .startOw => Sys2Proof.Machine.execStartOw s
  | .startJtag => Sys2Proof.Machine.execStartJtag s
  | .startUart => Sys2Proof.Machine.execStartUart s
  | .cancelOw => Sys2Proof.Machine.execCancelOw s
  | .cancelJtag => Sys2Proof.Machine.execCancelJtag s
  | .cancelUart => Sys2Proof.Machine.execCancelUart s
  | .valueAt => Sys2Proof.Machine.execValueAt s
  | .findEdge => Sys2Proof.Machine.execFindEdge s
  | .reset => Sys2Proof.Machine.execReset s
  | .clear chan => Sys2Proof.Machine.execClear chan s
  | .progress percent => Sys2Proof.Machine.execProgress percent s
  | .endRun st code sym err => Sys2Proof.Machine.execEndRun st code sym err s
  | .owReset chan present start stop => Sys2Proof.Machine.execOwReset chan present start stop s
  | .owByte chan value start stop => Sys2Proof.Machine.execOwByte chan value start stop s
  | .owBusError chan start stop => Sys2Proof.Machine.execOwBusError chan start stop s
  | .jtState chan state start stop => Sys2Proof.Machine.execJtState chan state start stop s
  | .jtShiftTdi chan body => Sys2Proof.Machine.execJtShiftTdi chan body s
  | .jtShiftTdo chan body => Sys2Proof.Machine.execJtShiftTdo chan body s
  | .uaDataRx chan value pe fe start stop => Sys2Proof.Machine.execUaDataRx chan value pe fe start stop s
  | .uaDataTx chan value pe fe start stop => Sys2Proof.Machine.execUaDataTx chan value pe fe start stop s
  | .uaEvent chan label start stop => Sys2Proof.Machine.execUaEvent chan label start stop s
  | .tapTestLogicReset0 => Sys2Proof.Machine.execTapTestLogicReset0 s
  | .tapTestLogicReset1 => Sys2Proof.Machine.execTapTestLogicReset1 s
  | .tapRunTestIdle0 => Sys2Proof.Machine.execTapRunTestIdle0 s
  | .tapRunTestIdle1 => Sys2Proof.Machine.execTapRunTestIdle1 s
  | .tapSelectDr0 => Sys2Proof.Machine.execTapSelectDr0 s
  | .tapSelectDr1 => Sys2Proof.Machine.execTapSelectDr1 s
  | .tapCaptureDr0 => Sys2Proof.Machine.execTapCaptureDr0 s
  | .tapCaptureDr1 => Sys2Proof.Machine.execTapCaptureDr1 s
  | .tapShiftDr0 => Sys2Proof.Machine.execTapShiftDr0 s
  | .tapShiftDr1 => Sys2Proof.Machine.execTapShiftDr1 s
  | .tapExit1Dr0 => Sys2Proof.Machine.execTapExit1Dr0 s
  | .tapExit1Dr1 => Sys2Proof.Machine.execTapExit1Dr1 s
  | .tapPauseDr0 => Sys2Proof.Machine.execTapPauseDr0 s
  | .tapPauseDr1 => Sys2Proof.Machine.execTapPauseDr1 s
  | .tapExit2Dr0 => Sys2Proof.Machine.execTapExit2Dr0 s
  | .tapExit2Dr1 => Sys2Proof.Machine.execTapExit2Dr1 s
  | .tapUpdateDr0 => Sys2Proof.Machine.execTapUpdateDr0 s
  | .tapUpdateDr1 => Sys2Proof.Machine.execTapUpdateDr1 s
  | .tapSelectIr0 => Sys2Proof.Machine.execTapSelectIr0 s
  | .tapSelectIr1 => Sys2Proof.Machine.execTapSelectIr1 s
  | .tapCaptureIr0 => Sys2Proof.Machine.execTapCaptureIr0 s
  | .tapCaptureIr1 => Sys2Proof.Machine.execTapCaptureIr1 s
  | .tapShiftIr0 => Sys2Proof.Machine.execTapShiftIr0 s
  | .tapShiftIr1 => Sys2Proof.Machine.execTapShiftIr1 s
  | .tapExit1Ir0 => Sys2Proof.Machine.execTapExit1Ir0 s
  | .tapExit1Ir1 => Sys2Proof.Machine.execTapExit1Ir1 s
  | .tapPauseIr0 => Sys2Proof.Machine.execTapPauseIr0 s
  | .tapPauseIr1 => Sys2Proof.Machine.execTapPauseIr1 s
  | .tapExit2Ir0 => Sys2Proof.Machine.execTapExit2Ir0 s
  | .tapExit2Ir1 => Sys2Proof.Machine.execTapExit2Ir1 s
  | .tapUpdateIr0 => Sys2Proof.Machine.execTapUpdateIr0 s
  | .tapUpdateIr1 => Sys2Proof.Machine.execTapUpdateIr1 s
  | .clsUnknown => Sys2Proof.Machine.execClsUnknown s
  | .clsOne => Sys2Proof.Machine.execClsOne s
  | .clsZero => Sys2Proof.Machine.execClsZero s
  | .clsReset => Sys2Proof.Machine.execClsReset s

end Sys2Proof.Machine
end

