-- ==== Sys2Proof/Machine/Step.lean ====
section
/-!
DEFINITION. One step of the block, and the place its next operation word is fetched from.
-/

namespace Sys2Proof.Machine

/-- One step: carry out the operation word at the front of `ops`; when none waits, the next outside action or engine step. -/
def step (s : State) : Host.Outcome State Fault Refusal :=
  match fetch s with
  | some (w, s') =>
      match readWord w with
      | some i => exec i s'
      | none => rejectWord w s'
  | none => betweenWords s

/-- The state with one operation word, given by its table bits, as the only word waiting: the very next step fetches and runs it. -/
def State.withFetchWord (s : State) (nbits w : Nat) : State := { s with ops := [tableOp nbits w] }

end Sys2Proof.Machine
end

