-- ==== Sys2Proof/Safety.lean ====
section
/-!
DEFINITION. The terms in which claims about the block are made: the legal configurations of 46_host_commands.md R385 in plain
arithmetic, the entry searches of 40_edge_scanner.md as predicates, what holds of every engine's output side, and what a safe state is.
-/

namespace Sys2Proof.Machine

/-! ## Legal configurations (46_host_commands.md R385) -/

/-- Condition 2 does not hold: `WIN_S <= WIN_E` and `WIN_E <= SB_COUNT`. -/
def windowFits (winS winE : Word) (count : Nat) : Prop := winS.toNat ≤ winE.toNat ∧ winE.toNat ≤ count

/-- A register that names a present channel: conditions 3 and 4 do not hold. -/
def namesChannel (w : Word) : Prop := w.toNat ≤ 31

/-- A register that names a channel or holds -1: condition 3 does not hold. -/
def namesChannelOrAbsent (w : Word) : Prop := w.toNat ≤ 31 ∨ w.toNat = 255

/-- No condition of R385 holds for the 1-Wire engine. -/
def owLegal (s : State) : Prop :=
  s.sbRate ≠ 0#64 ∧ windowFits s.owConfig.winS s.owConfig.winE s.samples.length
    ∧ namesChannel s.owConfig.line ∧ s.owConfig.mode.toNat ≤ 1

/-- No condition of R385 holds for the JTAG engine. -/
def jtLegal (s : State) : Prop :=
  s.sbRate ≠ 0#64 ∧ windowFits s.jtConfig.winS s.jtConfig.winE s.samples.length
    ∧ namesChannel s.jtConfig.tck ∧ namesChannel s.jtConfig.tms
    ∧ namesChannelOrAbsent s.jtConfig.tdi ∧ namesChannelOrAbsent s.jtConfig.tdo

/-- No condition of R385 holds for the UART engine. -/
def uaLegal (s : State) : Prop :=
  s.sbRate ≠ 0#64 ∧ windowFits s.uaConfig.winS s.uaConfig.winE s.samples.length
    ∧ namesChannelOrAbsent s.uaConfig.rxd ∧ namesChannelOrAbsent s.uaConfig.txd
    ∧ namesChannelOrAbsent s.uaConfig.cts ∧ namesChannelOrAbsent s.uaConfig.rts
    ∧ namesChannelOrAbsent s.uaConfig.dtr ∧ namesChannelOrAbsent s.uaConfig.dsr
    ∧ namesChannelOrAbsent s.uaConfig.dcd ∧ namesChannelOrAbsent s.uaConfig.ri
    ∧ s.uaConfig.frame.toNat / 4 % 4 ≠ 3 ∧ s.uaConfig.frame.toNat / 16 % 4 ≠ 3 ∧ s.uaConfig.frame.toNat < 128
    ∧ s.uaConfig.baud.toNat < 2 ^ 32

/-! ## Entries of the sample memory -/

/-- Entry `i` is the greatest at or before `t` (40_edge_scanner.md R150). -/
def heldEntry (m : Memory) (t : Int) (i : Nat) (x : Sample) : Prop :=
  m[i]? = some x ∧ x.time ≤ t ∧ ∀ (j : Nat) (y : Sample), i < j → m[j]? = some y → t < y.time

/-- `EDGE(i, mask, dir)`: the masked value changes between entry `i - 1` and entry `i` (40_edge_scanner.md R153). -/
def edgeAt (m : Memory) (mask : ChannelBits) (dir : EdgeDir) (i : Nat) (x : Sample) : Prop :=
  ∃ p : Sample, 1 ≤ i ∧ m[i - 1]? = some p ∧ m[i]? = some x ∧
    match dir with
    | .rising => p.val &&& mask = 0#32 ∧ x.val &&& mask ≠ 0#32
    | .falling => p.val &&& mask ≠ 0#32 ∧ x.val &&& mask = 0#32

/-- Entry `i` is an edge strictly inside `(t0, t1)` (40_edge_scanner.md R152). -/
def edgeWithin (m : Memory) (t0 t1 : Int) (mask : ChannelBits) (dir : EdgeDir) (i : Nat) (x : Sample) : Prop :=
  edgeAt m mask dir i x ∧ t0 < x.time ∧ x.time < t1

/-! ## Records in plain arithmetic -/

/-- A record's header word: `KIND`, `CHAN`, `SUB`, `FLAGS` and `LEN` at bits 0, 8, 16, 24 and 32 (30_encoding.md R114). -/
def headerWord (kind chan sub flags len : Nat) : Word :=
  natWord (kind + 0x100 * chan + 0x10000 * sub + 0x1000000 * flags + 0x100000000 * len)

/-! ## Check points -/

/-- The engine's next step reads `CANCEL_PENDING`: OW.LOOP, JTAG.SCAN, UART.LANE, UART.HS (60_exceptions.md R410). -/
def atCheckPoint (e : EngineId) (s : State) : Prop :=
  match e with
  | .ow => s.owPc = .loop
  | .jtag => s.jtPc = .scan
  | .uart => s.uaPc = .lane ∨ s.uaPc = .hs

/-- The engine's next step is its END step with DONE. -/
def atDone (e : EngineId) (s : State) : Prop :=
  match e with
  | .ow => s.owPc = .done
  | .jtag => s.jtPc = .done
  | .uart => s.uaPc = .done

/-- The steps of every engine but `e` stand where they stood. -/
def othersKept (e : EngineId) (s t : State) : Prop :=
  (e ≠ .ow → t.owWork = s.owWork ∧ t.owOut = s.owOut ∧ t.owPc = s.owPc)
    ∧ (e ≠ .jtag → t.jtWork = s.jtWork ∧ t.jtOut = s.jtOut ∧ t.jtPc = s.jtPc)
    ∧ (e ≠ .uart → t.uaWork = s.uaWork ∧ t.uaOut = s.uaOut ∧ t.uaPc = s.uaPc)

/-- What a step of engine `e` can depend on is the same in both states: its registers, its output side, its next step, the sample memory
and `SB_RATE` (20_memory.md R92, 10_state.md R57, R58). -/
def sameForEngine (e : EngineId) (s t : State) : Prop :=
  t.samples = s.samples ∧ t.sbRate = s.sbRate ∧ t.out e = s.out e ∧
    match e with
    | .ow => t.owWork = s.owWork ∧ t.owPc = s.owPc
    | .jtag => t.jtWork = s.jtWork ∧ t.jtPc = s.jtPc
    | .uart => t.uaWork = s.uaWork ∧ t.uaPc = s.uaPc

/-- Everything outside the engines and the waiting words stands as it stood: the capture, the block and primitive registers, the
configuration registers, the outside actions, the host's last reply and the counter of free values. -/
def hostSideKept (s t : State) : Prop :=
  t.samples = s.samples ∧ t.sbRate = s.sbRate ∧ t.sbTrig = s.sbTrig ∧ t.cmdInvalid = s.cmdInvalid
    ∧ t.prT0 = s.prT0 ∧ t.prT1 = s.prT1 ∧ t.prMask = s.prMask ∧ t.prDir = s.prDir
    ∧ t.prResIdx = s.prResIdx ∧ t.prResTs = s.prResTs ∧ t.prResVal = s.prResVal ∧ t.prStat = s.prStat
    ∧ t.owConfig = s.owConfig ∧ t.jtConfig = s.jtConfig ∧ t.uaConfig = s.uaConfig
    ∧ t.inbox = s.inbox ∧ t.hostReply = s.hostReply ∧ t.tick = s.tick

/-! ## The register map in numbers (20_memory.md R89) -/

/-- The registers a host write stores into (46_host_commands.md R381). -/
def storedRegs : List Nat :=
  [0x08, 0x09, 0x0A, 0x0B, 0x10, 0x11, 0x12, 0x13, 0x20, 0x21, 0x22, 0x23, 0x24, 0x25,
    0x30, 0x31, 0x32, 0x33, 0x34, 0x35, 0x36, 0x37, 0x38, 0x39, 0x3A, 0x3B]

/-- What a read of register `n` gives after `v` is written to it: `v`, but for `PR_MASK` and `PR_DIR`, whose bits above the field read as
zero (46_host_commands.md R381, 10_state.md R40, R42; log 27). -/
def readBack (n : Nat) (v : Word) : Word :=
  if n = 0x0A then v &&& 0xFFFFFFFF#64 else if n = 0x0B then v &&& 1#64 else v

/-- The read-only registers (46_host_commands.md R381), the profile image apart. -/
def readOnlyRegs : List Nat :=
  [0x00, 0x01, 0x02, 0x0C, 0x0D, 0x0E, 0x0F, 0x18, 0x19, 0x1A, 0x1B, 0x28, 0x29, 0x2A, 0x2B, 0x3C, 0x3D, 0x3E, 0x3F]

/-- The numbers of the profile image (10_state.md R55). -/
def profileReg (n : Nat) : Prop := 0x40 ≤ n ∧ n ≤ 0x51 ∨ 0x60 ≤ n ∧ n ≤ 0x71

/-! ## Register values after a block reset (10_state.md R70) -/

/-- The numbers of the channel-index registers (10_state.md R44). -/
def channelRegs : List Nat := [0x12, 0x22, 0x23, 0x24, 0x25, 0x32, 0x33, 0x34, 0x35, 0x36, 0x37, 0x38, 0x39]

/-- The numbers of the registers reset does not touch: the sample-memory attributes and the profile image (10_state.md R70). -/
def keptByReset (n : Nat) : Bool :=
  decide (n ≤ 0x02) || (decide (0x40 ≤ n) && decide (n ≤ 0x51)) || (decide (0x60 ≤ n) && decide (n ≤ 0x71))

/-- What a register that reset touches, or a hole, reads after it (10_state.md R70). -/
def resetWord (n : Nat) : Word := if channelRegs.contains n then 0xFF#64 else 0#64

/-! ## What holds of an engine's output side -/

/-- The engine a symbol operation belongs to; `none` for an operation that is no symbol (30_encoding.md R115). -/
def symbolEngine (i : Instr) : Option EngineId :=
  match i with
  | .owReset _ _ _ _ | .owByte _ _ _ _ | .owBusError _ _ _ => some .ow
  | .jtState _ _ _ _ | .jtShiftTdi _ _ | .jtShiftTdo _ _ => some .jtag
  | .uaDataRx _ _ _ _ _ _ | .uaDataTx _ _ _ _ _ _ | .uaEvent _ _ _ _ => some .uart
  | _ => none

/-- A well-formed symbol record of the engine. -/
def ownSymbol (e : EngineId) (r : Record) : Bool :=
  match readWord (.record r) with
  | some i => symbolEngine i == some e
  | none => false

/-- A well-formed record that the engine's stream may hold: a stream-only record or a symbol of its own. -/
def ownRecord (e : EngineId) (r : Record) : Bool :=
  match readWord (.record r) with
  | some i => symbolEngine i == none || symbolEngine i == some e
  | none => false

/-- What a record of a result memory counts as an error (45_emitter.md R343). -/
def recordWeight (r : Record) : Nat :=
  match decodeRecord r with
  | .ok i => errorWeight i
  | .error _ => 0

/-- The output side of an engine: the result memory holds its own symbols (20_memory.md R87), the stream well-formed records, the counters
count the result memory (45_emitter.md R342, R343) in 64 bits (log 23), progress is a percentage (10_state.md R50), and a CANCEL is pending
only while RUNNING (46_host_commands.md R388). -/
def outputLegal (e : EngineId) (o : EngineOut) : Bool :=
  o.result.all (ownSymbol e) && o.stream.all (ownRecord e)
    && o.symcnt == natWord o.result.length && o.errcnt == natWord (o.result.map recordWeight).sum
    && decide (o.progress.toNat ≤ 100) && (!o.status.cancelPending || o.status.state == .running)

/-- The output sides of all three engines. -/
def State.outputsLegal (s : State) : Bool :=
  outputLegal .ow s.owOut && outputLegal .jtag s.jtOut && outputLegal .uart s.uaOut

/-! ## Safe states -/

/-- A capture inside the input bounds: strictly rising (10_state.md R22) and `N < 2^62` (R24). -/
def captureLegal (m : Memory) : Bool := m.wf && decide (m.length < 2 ^ 62)

/-- An outside action that puts no illegal capture in place. -/
def HostAct.legal (a : HostAct) : Bool :=
  match a with
  | .capture samples _ _ => captureLegal samples
  | .readReg _ | .writeReg _ _ | .consume _ | .readResult _ _ | .resetInput | .turn _ => true

/-- A waiting operation word that carries a command, or that names a well-formed operation. -/
def opLegal (w : OpWord) : Bool :=
  match w with
  | .cmd _ => true
  | .record _ | .tap _ | .cls _ => (readWord w).isSome

/-- The 1-Wire engine's latched line is a channel while it runs. -/
def owReady (s : State) : Bool := !s.running .ow || chanLegal s.owWork.line

/-- A JTAG run's position: the scan index is an entry, and `slack` more bits can have been shifted than there are entries before it. -/
def jtPlaced (s : State) (slack : Nat) : Bool :=
  let w := s.jtWork
  decide (w.idx < s.samples.length) && decide (w.spanStart ≤ s.samples.length)
    && decide (w.tdiAcc.length + slack ≤ w.idx) && decide (w.tdoAcc.length + slack ≤ w.idx)
    && (w.shiftFirst.all fun i => decide (i < s.samples.length)) && (w.shiftLast.all fun i => decide (i < s.samples.length))
    && (w.shiftFirst.isNone || w.shiftLast.isNone
        || ((w.tdi.isNone || !w.tdiAcc.isEmpty) && (w.tdo.isNone || !w.tdoAcc.isEmpty)))

/-- What the JTAG engine's latched and working registers are while it runs, at each of its steps. -/
def jtReady (s : State) : Bool :=
  let w := s.jtWork
  !s.running .jtag ||
    (decide (w.winS ≤ w.winE) && decide (w.winE ≤ s.samples.length)
      && chanLegal w.tck && chanLegal w.tms && w.tdi.all chanLegal && w.tdo.all chanLegal
      && match s.jtPc with
        | .idle | .init | .done | .cancelled => true
        | .scan | .update | .span | .progress => jtPlaced s 0
        | .step | .clear | .shift => jtPlaced s 1)

/-- A time is not before the first entry of the sample memory. -/
def notBefore (m : Memory) (t : Int) : Bool :=
  match m with
  | [] => false
  | x :: _ => decide (x.time ≤ t)

/-- The UART engine's lane number names a lane of the kind asked for. -/
def laneIs (w : UaWork) (data : Bool) : Bool :=
  match currentLane w with
  | some l => isDataLane l.kind == data
  | none => false

/-- The times a UART run works from lie inside the capture. -/
def uaTimes (s : State) : Bool := notBefore s.samples s.uaWork.tStart && notBefore s.samples s.uaWork.cursor

/-- The cell width is not negative. -/
def cellLegal (c : Frac) : Bool := decide (0 ≤ c.num) && decide (0 < c.den)

/-- What the UART engine's latched and working registers are while it runs, at each of its steps. -/
def uaReady (s : State) : Bool :=
  let w := s.uaWork
  !s.running .uart ||
    ((w.lanes.all fun l => chanLegal l.chan)
      && match s.uaPc with
        | .idle | .done | .cancelled => true
        | .lane | .startBit => laneIs w true && uaTimes s
        | .cell => laneIs w true && uaTimes s && notBefore s.samples w.t0
        | .fit => laneIs w true && uaTimes s && notBefore s.samples w.t0 && cellLegal w.cell
        | .data | .parity | .stop =>
            laneIs w true && uaTimes s && notBefore s.samples w.t0 && cellLegal w.cell && notBefore s.samples w.tLast
        | .emit | .resume => laneIs w true && uaTimes s && notBefore s.samples w.tLast
        | .hs => laneIs w false && uaTimes s
        | .hsEvent => laneIs w false && uaTimes s && notBefore s.samples w.evTime
        | .progress => (currentLane w).isSome && uaTimes s
        | .nextLane => notBefore s.samples w.tStart)

/-- A safe state: the capture in place and those to come are inside the input bounds (10_state.md R24), no waiting word is malformed
(93 U9), and every RUNNING engine stands where its START and its steps have brought it. -/
def State.safe (s : State) : Bool :=
  captureLegal s.samples && s.inbox.all HostAct.legal && s.ops.all opLegal && owReady s && jtReady s && uaReady s

/-- The one thing that stops a safe state: the acquisition changes the capture under a RUNNING engine (93 U6, 10_state.md R58). -/
def captureClash (s : State) : Prop :=
  s.ops = [] ∧ (∃ m r g rest, s.inbox = .capture m r g :: rest) ∧ runningEngines s ≠ []

end Sys2Proof.Machine
end

