-- ==== Sys2Proof/Certificates/Slice0/Obligations.lean ====
section
/-!
DEFINITION. The statements for the provers. Rules are those of spec/. A docstring names the log entry where a clause is the model's own.
-/

open Sys2Proof Sys2Proof.Machine

/-! ## Decoding, encoding and the step -/

/-- The operation word at the front of `ops`, when it decodes to a well-formed operation, is what the step carries out, on the state
without it. The queue is the model's: a command waits for the next step, where R381 has the write to `CMD` execute it (log 1, log 7). -/
def Obligations.StepRunsDecodedOperation : Prop :=
  ∀ (s : State) (w : OpWord) (rest : List OpWord) (i : Instr),
    s.ops = w :: rest → decode w = .ok i → i.wf = true → step s = exec i { s with ops := rest }

/-- With no word waiting, the next outside action happens; with no action left, the one RUNNING engine takes its next step; with no
engine RUNNING, nothing changes. The list of actions is the model's (log 6, log 21). -/
def Obligations.StepWithoutWordActsOrTurns : Prop :=
  ∀ s : State, s.ops = [] →
    (∀ a rest, s.inbox = a :: rest → step s = act a { s with inbox := rest })
    ∧ (∀ e : EngineId, s.inbox = [] → (s.out e).status.state = .running →
        (∀ f : EngineId, f ≠ e → (s.out f).status.state ≠ .running) → step s = engineTurn e s)
    ∧ (s.inbox = [] → (∀ e : EngineId, (s.out e).status.state ≠ .running) → step s = .next s)

/-- Words written out from the spec's own examples decode to the operations they stand for (R113, R121, R122, R350, R354). -/
def Obligations.WrittenWordsDecode : Prop :=
  decode (.cmd 0x0000000000000101#64) = .ok .startJtag
  ∧ decode (.cmd 0x0000000000000005#64) = .ok .reset
  ∧ decode (.record [0x0000000201000010#64, 0x64#64, 0x244#64]) = .ok (.owReset 0x00#8 true 0x64#64 0x244#64)
  ∧ decode (.record [0x0000000480010321#64, 0xA#64, 0xE#64, 0x3#64, 0x1#64])
      = .ok (.jtShiftTdo 0x03#8 [0xA#64, 0xE#64, 0x3#64, 0x1#64])
  ∧ decode (.record [0x0000000202550030#64, 0x12C#64, 0x18B#64])
      = .ok (.uaDataRx 0x00#8 0x55#8 false true 0x12C#64 0x18B#64)
  ∧ decode (.tap 0b10011#5) = .ok .tapSelectIr1
  ∧ decode (.cls 0b10#2) = .ok .clsZero

/-- Decoding the encoding of any well-formed operation gives the operation back: no field of an encoding is dropped. -/
def Obligations.DecodeInvertsEncode : Prop :=
  ∀ i : Instr, i.wf = true → decode (encode i) = .ok i

/-- A word that decodes is the encoding of what it decodes to: no two words name one operation, and no bit of a legal word is ignored. -/
def Obligations.EncodeInvertsDecode : Prop :=
  ∀ (w : OpWord) (i : Instr), decode w = .ok i → encode i = w

/-- A record serialised byte by byte, followed by anything, reads back as its operation and what follows it (R84, R114). -/
def Obligations.SerialisedRecordReadsBack : Prop :=
  ∀ (ws : Record) (i : Instr) (rest : List Byte),
    decodeRecord ws = .ok i → ws.length ≤ 2 ^ 32 → decodeBytes (recordBytes ws ++ rest) = .ok (i, rest)

/-- The bit words of a shifted bit-string (R117): bit `j`, counted from the first shifted (rightmost), stands in body word
`3 + j / 64` at position `j mod 64`, the bits above are zero, there are `ceil(nbits / 64)` bit words, and read as a number with the
leftmost character most significant the string equals the number the bit words form, word 3 least significant. -/
def Obligations.BitWordsHoldShiftedBits : Prop :=
  ∀ (first last : Nat) (bits : List Bool),
    (shiftBody first last bits).take 3 = [natWord first, natWord last, natWord bits.length]
    ∧ (shiftBody first last bits).length = 3 + (bits.length + 63) / 64
    ∧ (∀ j : Nat, ((shiftBody first last bits).getD (3 + j / 64) 0#64).getLsbD (j % 64) = bits.reverse.getD j false)
    ∧ bitsNumber bits = (((shiftBody first last bits).drop 3).map BitVec.toNat).foldr (fun w acc => w + 2 ^ 64 * acc) 0

/-! ## Host commands -/

/-- A word written to `CMD` that is none of the nine legal ones sets `CMD_INVALID` and changes nothing else; the bit then stays 1 through
every step but a RESET, the reset input, or a write of 1 to bit 0 of `BLK_STATUS` (R392, R406). That the word waits and has its effect in
the next step, where R381 has the write execute it, and that the reset input and the write are actions of a list, are the model's choices
(log 1, log 6). -/
def Obligations.IllegalCommandOnlySetsStickyBit : Prop :=
  (∀ (s : State) (v : Word) (rest : List OpWord), s.ops = .cmd v :: rest →
    v ∉ [0x1#64, 0x101#64, 0x201#64, 0x2#64, 0x102#64, 0x202#64, 0x3#64, 0x4#64, 0x5#64] →
    step s = .next { s with ops := rest, cmdInvalid := true })
  ∧ ∀ s t : State, s.cmdInvalid = true → step s = .next t →
    t.cmdInvalid = true
    ∨ (∃ rest, s.ops = .cmd 0x5#64 :: rest)
    ∨ (s.ops = [] ∧ ∃ rest, s.inbox = .resetInput :: rest)
    ∨ (s.ops = [] ∧ ∃ v rest, s.inbox = .writeReg 0x06 v :: rest ∧ v.getLsbD 0 = true)

/-- A START for an engine that is RUNNING changes nothing (R384). -/
def Obligations.StartWhileRunningIsIgnored : Prop :=
  ∀ s : State,
    (s.owOut.status.state = .running → exec .startOw s = .next s)
    ∧ (s.jtOut.status.state = .running → exec .startJtag s = .next s)
    ∧ (s.uaOut.status.state = .running → exec .startUart s = .next s)

/-- A START of an engine that is not RUNNING is refused exactly when a condition of R385 holds; a refusal writes the status register and
nothing else (R385; that the result memory stays is the model's choice between R385 and D39, log 28). -/
def Obligations.StartRefusedForIllegalConfiguration : Prop :=
  ∀ s : State,
    (s.owOut.status.state ≠ .running →
      (¬owLegal s → exec .startOw s = .next { s with owOut := { s.owOut with status := ⟨.failed, .cfgInvalid, false⟩ } })
      ∧ (owLegal s → ∃ t, exec .startOw s = .next t ∧ t.owOut.status = ⟨.running, .none, false⟩))
    ∧ (s.jtOut.status.state ≠ .running →
      (¬jtLegal s → exec .startJtag s = .next { s with jtOut := { s.jtOut with status := ⟨.failed, .cfgInvalid, false⟩ } })
      ∧ (jtLegal s → ∃ t, exec .startJtag s = .next t ∧ t.jtOut.status = ⟨.running, .none, false⟩))
    ∧ (s.uaOut.status.state ≠ .running →
      (¬uaLegal s → exec .startUart s = .next { s with uaOut := { s.uaOut with status := ⟨.failed, .cfgInvalid, false⟩ } })
      ∧ (uaLegal s → ∃ t, exec .startUart s = .next t ∧ t.uaOut.status = ⟨.running, .none, false⟩))

/-- An accepted START of the 1-Wire engine (R190, R191, R383): RUNNING, the counters and the progress register 0, the result memory
empty, the configuration, profile and frame lengths latched, every other working register and everything else unchanged. The CLEAR
record, which the rules emit in this step, is the waiting word, and the stream is still as it was: the model's choice (log 7). -/
def Obligations.AcceptedOneWireStartLatches : Prop :=
  ∀ s : State, s.owOut.status.state ≠ .running → owLegal s →
    ∃ w : OwWork,
      exec .startOw s = .next { s with
        owOut := ⟨⟨.running, .none, false⟩, 0#64, 0#64, 0#64, s.owOut.stream, []⟩
        owWork := w, owPc := .init, cur := .ow
        ops := .record [headerWord 0x01 s.owConfig.line.toNat 0 0 0] :: s.ops }
      ∧ w.winS = s.owConfig.winS.toNat ∧ w.winE = s.owConfig.winE.toNat
      ∧ w.line.toNat = s.owConfig.line.toNat ∧ w.mask = 1#32 <<< s.owConfig.line.toNat
      ∧ w.mode = (if s.owConfig.mode = 0#64 then .standard else .overdrive) ∧ w.profile = Config.owProfile w.mode
      ∧ w.bitTicks = ticks s.sbRate (bitFrame w.profile) ∧ w.resetTicks = ticks s.sbRate (resetFrame w.profile)
      ∧ (w.winS < w.winE → window s.samples w.winS w.winE = some (w.tStart, w.tEnd))
      ∧ (w.winS = w.winE → w.tStart = s.owWork.tStart ∧ w.tEnd = s.owWork.tEnd)
      ∧ w = { s.owWork with
          winS := w.winS, winE := w.winE, line := w.line, mask := w.mask, mode := w.mode, profile := w.profile
          bitTicks := w.bitTicks, resetTicks := w.resetTicks, tStart := w.tStart, tEnd := w.tEnd }

/-- An accepted START of the JTAG engine (R250, R383): RUNNING, the counters and the progress register 0, the result memory empty, the
configuration latched, every other working register and everything else unchanged. The CLEAR records, in the order TCK, TMS, TDI, TDO,
which the rules emit in this step, are waiting words, and the stream is still as it was: the model's choice (log 7). -/
def Obligations.AcceptedJtagStartLatches : Prop :=
  ∀ s : State, s.jtOut.status.state ≠ .running → jtLegal s →
    ∃ w : JtWork,
      exec .startJtag s = .next { s with
        jtOut := ⟨⟨.running, .none, false⟩, 0#64, 0#64, 0#64, s.jtOut.stream, []⟩
        jtWork := w, jtPc := .init, cur := .jtag
        ops := ([s.jtConfig.tck, s.jtConfig.tms, s.jtConfig.tdi, s.jtConfig.tdo].filter (fun r => r != 0xFF#64)).map
            (fun r => .record [headerWord 0x01 r.toNat 0 0 0]) ++ s.ops }
      ∧ w.winS = s.jtConfig.winS.toNat ∧ w.winE = s.jtConfig.winE.toNat
      ∧ w.tck.toNat = s.jtConfig.tck.toNat ∧ w.tms.toNat = s.jtConfig.tms.toNat
      ∧ w.tdi.map BitVec.toNat = (if s.jtConfig.tdi = 0xFF#64 then none else some s.jtConfig.tdi.toNat)
      ∧ w.tdo.map BitVec.toNat = (if s.jtConfig.tdo = 0xFF#64 then none else some s.jtConfig.tdo.toNat)
      ∧ w = { s.jtWork with winS := w.winS, winE := w.winE, tck := w.tck, tms := w.tms, tdi := w.tdi, tdo := w.tdo }

/-- An accepted START of the UART engine (R290, R291, R383): the lanes are the configured lines in the fixed order, one CLEAR record
each; a run without a lane or with an empty window goes straight to its end, any other to the loop of lane 0. The CLEAR records, which
the rules emit in this step, are waiting words, and the stream is still as it was: the model's choice (log 7). Every other working
register stays as it was, and in a run that goes straight to its end the lane number, the window's times and the cursor too. -/
def Obligations.AcceptedUartStartLatches : Prop :=
  ∀ s : State, s.uaOut.status.state ≠ .running → uaLegal s →
    ∃ (w : UaWork) (pc : UaPc),
      exec .startUart s = .next { s with
        uaOut := ⟨⟨.running, .none, false⟩, 0#64, 0#64, 0#64, s.uaOut.stream, []⟩
        uaWork := w, uaPc := pc, cur := .uart
        ops := w.lanes.map (fun l => .record [headerWord 0x01 l.chan.toNat 0 0 0]) ++ s.ops }
      ∧ w.winS = s.uaConfig.winS.toNat ∧ w.winE = s.uaConfig.winE.toNat
      ∧ w.frame = s.uaConfig.frame ∧ w.baud = s.uaConfig.baud
      ∧ w.lanes.map (fun l => (l.kind, l.chan.toNat))
          = ([(LaneKind.rx, s.uaConfig.rxd), (.tx, s.uaConfig.txd), (.cts, s.uaConfig.cts), (.rts, s.uaConfig.rts),
              (.dtr, s.uaConfig.dtr), (.dsr, s.uaConfig.dsr), (.dcd, s.uaConfig.dcd), (.ri, s.uaConfig.ri)].filter
              (fun p => p.2 != 0xFF#64)).map (fun p => (p.1, p.2.toNat))
      ∧ (w.lanes = [] ∨ w.winS = w.winE → pc = .done ∧ w.lane = s.uaWork.lane ∧ w.tStart = s.uaWork.tStart
          ∧ w.tEnd = s.uaWork.tEnd ∧ w.cursor = s.uaWork.cursor)
      ∧ w = { s.uaWork with
          winS := w.winS, winE := w.winE, frame := w.frame, baud := w.baud, lanes := w.lanes
          lane := w.lane, tStart := w.tStart, tEnd := w.tEnd, cursor := w.cursor }
      ∧ (∀ l rest, w.lanes = l :: rest → w.winS < w.winE →
          w.lane = 0 ∧ window s.samples w.winS w.winE = some (w.tStart, w.tEnd) ∧ w.cursor = w.tStart
          ∧ pc = (if l.kind = .rx ∨ l.kind = .tx then .lane else .hs))

/-- CANCEL (the words 0x2, 0x102, 0x202) sets the engine's `CANCEL_PENDING` while it is RUNNING, and otherwise changes nothing; it touches
no other engine (R387). -/
def Obligations.CancelSetsPendingWhileRunning : Prop :=
  ∀ s : State,
    encode .cancelOw = .cmd 0x2#64 ∧ encode .cancelJtag = .cmd 0x102#64 ∧ encode .cancelUart = .cmd 0x202#64
    ∧ exec .cancelOw s = .next (if s.owOut.status.state = .running then
      { s with owOut := { s.owOut with status := { s.owOut.status with cancelPending := true } } } else s)
    ∧ exec .cancelJtag s = .next (if s.jtOut.status.state = .running then
      { s with jtOut := { s.jtOut with status := { s.jtOut.status with cancelPending := true } } } else s)
    ∧ exec .cancelUart s = .next (if s.uaOut.status.state = .running then
      { s with uaOut := { s.uaOut with status := { s.uaOut.status with cancelPending := true } } } else s)

/-- The VALUE_AT command (the word 0x3) stores the greatest entry at or before `PR_T0`, or the answer `NoSample` when there is no entry or the time is
before the first; it changes nothing else (R389, R150). -/
def Obligations.ValueAtCommandStoresHeldEntry : Prop :=
  ∀ s : State,
    encode .valueAt = .cmd 0x3#64
    ∧ ((s.samples = [] ∨ ∃ x, s.samples[0]? = some x ∧ s.prT0.toInt < x.time) →
      exec .valueAt s = .next { s with prResIdx := 0#64, prResTs := 0#64, prResVal := 0#64, prStat := 2#64 })
    ∧ ((∃ x, s.samples[0]? = some x ∧ x.time ≤ s.prT0.toInt) →
      ∃ i x, heldEntry s.samples s.prT0.toInt i x ∧
        exec .valueAt s = .next { s with
          prResIdx := natWord i, prResTs := x.ts, prResVal := BitVec.ofNat 64 x.val.toNat, prStat := 1#64 })

/-- The FIND_EDGE command (the word 0x4) stores the least entry that is an edge strictly inside `(PR_T0, PR_T1)` for the mask in `PR_MASK` 31:0 and the
direction in `PR_DIR` bit 0, or the answer `NotFound`; it changes nothing else (R390, R152, R153). -/
def Obligations.FindEdgeCommandStoresFirstEdge : Prop :=
  ∀ (s : State) (mask : ChannelBits) (dir : EdgeDir),
    mask = BitVec.ofNat 32 s.prMask.toNat → dir = (if s.prDir.toNat % 2 = 0 then .rising else .falling) →
    encode .findEdge = .cmd 0x4#64
    ∧ ((∀ i x, ¬edgeWithin s.samples s.prT0.toInt s.prT1.toInt mask dir i x) →
      exec .findEdge s = .next { s with prResIdx := 0#64, prResTs := 0#64, prResVal := 0#64, prStat := 2#64 })
    ∧ (∀ i x, edgeWithin s.samples s.prT0.toInt s.prT1.toInt mask dir i x →
      (∀ j y, j < i → ¬edgeWithin s.samples s.prT0.toInt s.prT1.toInt mask dir j y) →
      exec .findEdge s = .next { s with
        prResIdx := natWord i, prResTs := x.ts, prResVal := BitVec.ofNat 64 x.val.toNat, prStat := 1#64 })

/-- RESET (the word 0x5), and the reset input alike: the sample memory, its attributes and the profile image stay, every other register reads its reset
value, every engine is IDLE, and the streams and result memories are empty (R391). That the waiting words are dropped is the model's
choice (log 26). -/
def Obligations.ResetCommandRestoresBlock : Prop :=
  ∀ s : State, encode .reset = .cmd 0x5#64 ∧ ∃ t : State, exec .reset s = .next t ∧ act .resetInput s = .next t
    ∧ t.samples = s.samples
    ∧ (∀ n : Nat, keptByReset n = true → readReg t n = readReg s n)
    ∧ (∀ n : Nat, keptByReset n = false → readReg t n = resetWord n)
    ∧ (∀ e : EngineId, (t.out e).status = ⟨.idle, .none, false⟩ ∧ (t.out e).stream = [] ∧ (t.out e).result = [])
    ∧ t.ops = []

/-! ## Records -/

/-- Carrying out CLEAR appends its one word to the stream of the executing engine and changes nothing else; carrying out PROGRESS
writes that engine's progress register as well (R344, R347, R340). The executing engine is the model's field `cur` (log 8). -/
def Obligations.ClearAndProgressGoToStream : Prop :=
  ∀ (chan percent : Byte) (s : State),
    encode (.clear chan) = .record [headerWord 0x01 chan.toNat 0 0 0]
    ∧ encode (.progress percent) = .record [headerWord 0x02 0xFF percent.toNat 0 0]
    ∧ exec (.clear chan) s = .next (s.setOut s.cur { s.out s.cur with
        stream := (s.out s.cur).stream ++ [[headerWord 0x01 chan.toNat 0 0 0]] })
    ∧ exec (.progress percent) s = .next (s.setOut s.cur { s.out s.cur with
        progress := natWord percent.toNat
        stream := (s.out s.cur).stream ++ [[headerWord 0x02 0xFF percent.toNat 0 0]] })

/-- Carrying out END appends the record and writes the final state and code to the status register, the pending bit cleared, in one step
(R349, R412). The engine is the model's field `cur` (log 8), and a record with a code no engine has is a fault (log 11). -/
def Obligations.EndRecordWritesStatus : Prop :=
  ∀ (sym err : Word) (s : State),
    (∀ (st : RunState) (code : FailCode),
      exec (.endRun st.code code.code sym err) s = .next (s.setOut s.cur { s.out s.cur with
        status := ⟨st, code, false⟩
        stream := (s.out s.cur).stream ++ [[headerWord 0x03 0xFF st.code.toNat code.code.toNat 2, sym, err]] }))
    ∧ ∀ st code : Byte, 4 < st.toNat ∨ 2 < code.toNat → exec (.endRun st code sym err) s = .fault .malformedRecord

/-- The 1-Wire symbols (R350, R351, R352): their words, appended to the result memory and the stream, one more symbol counted, and one
more error for a BusError. -/
def Obligations.OneWireSymbolsAppendAndCount : Prop :=
  ∀ (chan value : Byte) (present : Bool) (start stop : Word) (s : State) (i : Instr) (r : Record) (err : Word),
    (i = .owReset chan present start stop ∧ r = [headerWord 0x10 chan.toNat 0 present.toNat 2, start, stop] ∧ err = 0#64
      ∨ i = .owByte chan value start stop ∧ r = [headerWord 0x11 chan.toNat value.toNat 0 2, start, stop] ∧ err = 0#64
      ∨ i = .owBusError chan start stop ∧ r = [headerWord 0x12 chan.toNat 0 0 2, start, stop] ∧ err = 1#64) →
    encode i = .record r
    ∧ exec i s = .next { s with owOut := { s.owOut with
        result := s.owOut.result ++ [r], stream := s.owOut.stream ++ [r]
        symcnt := s.owOut.symcnt + 1#64, errcnt := s.owOut.errcnt + err } }

/-- The JTAG symbols (R353, R354) complete in every state: their words, appended to the result memory and the stream, one more symbol
counted, never an error. A JT_SHIFT is its header word followed by its body, whatever the body; the header's LEN is the number of body
words, and open only for more words than LEN can count (log 15). -/
def Obligations.JtagSymbolsAppendAndCount : Prop :=
  ∀ (chan : Byte) (s : State),
    (∀ (state : TapState) (start stop : Word),
      encode (.jtState chan state start stop) = .record [headerWord 0x20 chan.toNat state.code.toNat 0x80 2, start, stop]
      ∧ exec (.jtState chan state start stop) s = .next { s with jtOut := { s.jtOut with
          result := s.jtOut.result ++ [[headerWord 0x20 chan.toNat state.code.toNat 0x80 2, start, stop]]
          stream := s.jtOut.stream ++ [[headerWord 0x20 chan.toNat state.code.toNat 0x80 2, start, stop]]
          symcnt := s.jtOut.symcnt + 1#64 } })
    ∧ ∀ body : List Word, ∃ len : BitVec 32,
      (body.length < 2 ^ 32 → len.toNat = body.length)
      ∧ encode (.jtShiftTdi chan body) = .record (headerWord 0x21 chan.toNat 0 0x80 len.toNat :: body)
      ∧ exec (.jtShiftTdi chan body) s = .next { s with jtOut := { s.jtOut with
          result := s.jtOut.result ++ [headerWord 0x21 chan.toNat 0 0x80 len.toNat :: body]
          stream := s.jtOut.stream ++ [headerWord 0x21 chan.toNat 0 0x80 len.toNat :: body]
          symcnt := s.jtOut.symcnt + 1#64 } }
      ∧ encode (.jtShiftTdo chan body) = .record (headerWord 0x21 chan.toNat 1 0x80 len.toNat :: body)
      ∧ exec (.jtShiftTdo chan body) s = .next { s with jtOut := { s.jtOut with
          result := s.jtOut.result ++ [headerWord 0x21 chan.toNat 1 0x80 len.toNat :: body]
          stream := s.jtOut.stream ++ [headerWord 0x21 chan.toNat 1 0x80 len.toNat :: body]
          symcnt := s.jtOut.symcnt + 1#64 } }

/-- The UART symbols (R355, R356): their words, appended to the result memory and the stream, one more symbol counted, and one more
error for each flag of a UA_DATA. -/
def Obligations.UartSymbolsAppendAndCount : Prop :=
  ∀ (chan value : Byte) (pe fe : Bool) (label : BitVec 4) (start stop : Word) (s : State) (i : Instr) (r : Record) (err : Nat),
    (i = .uaDataRx chan value pe fe start stop
        ∧ r = [headerWord 0x30 chan.toNat value.toNat (pe.toNat + 2 * fe.toNat) 2, start, stop] ∧ err = pe.toNat + fe.toNat
      ∨ i = .uaDataTx chan value pe fe start stop
        ∧ r = [headerWord 0x30 chan.toNat value.toNat (pe.toNat + 2 * fe.toNat + 4) 2, start, stop] ∧ err = pe.toNat + fe.toNat
      ∨ i = .uaEvent chan label start stop ∧ r = [headerWord 0x31 chan.toNat label.toNat 0 2, start, stop] ∧ err = 0) →
    encode i = .record r
    ∧ exec i s = .next { s with uaOut := { s.uaOut with
        result := s.uaOut.result ++ [r], stream := s.uaOut.stream ++ [r]
        symcnt := s.uaOut.symcnt + 1#64, errcnt := s.uaOut.errcnt + natWord err } }

/-! ## TAP rows and pulse classes -/

/-- The 32 rows of the transition table are the array of R247: row `2 * code + tms` moves the controller to the state whose code stands
there, and changes nothing else. Every operation encoded as a row index is one of them. That a row does so in every state, also where
`jt.current` is not the row's own, is the model's reading (log 9). -/
def Obligations.TapRowsFollowTable : Prop :=
  (∀ (t : TapState) (tms : Bool) (s : State), ∃ u : TapState,
    encode (tapRow t tms) = .tap (BitVec.ofNat 5 (2 * t.code.toNat + tms.toNat))
    ∧ [1, 0, 1, 2, 3, 9, 4, 5, 4, 5, 6, 8, 6, 7, 4, 8, 1, 2, 10, 0, 11, 12, 11, 12, 13, 15, 13, 14, 11, 15, 1, 2][2 * t.code.toNat + tms.toNat]?
        = some u.code.toNat
    ∧ exec (tapRow t tms) s = .next { s with jtWork := { s.jtWork with current := u } })
  ∧ ∀ (i : Instr) (row : BitVec 5), encode i = .tap row → ∃ t tms, i = tapRow t tms

/-- Five edges with TMS = 1 lead to TEST_LOGIC_RESET from every one of the 16 states (R248). -/
def Obligations.FiveOnesReachTestLogicReset : Prop :=
  ∀ s : State, ∃ a b c d e : State,
    exec (tapRow s.jtWork.current true) s = .next a ∧ exec (tapRow a.jtWork.current true) a = .next b
    ∧ exec (tapRow b.jtWork.current true) b = .next c ∧ exec (tapRow c.jtWork.current true) c = .next d
    ∧ exec (tapRow d.jtWork.current true) d = .next e ∧ e.jtWork.current = .testLogicReset

/-- Each pulse class sends the 1-Wire engine to its own handler and changes nothing else (R195). The handler is the field `owPc` (log 9). -/
def Obligations.PulseClassSelectsHandler : Prop :=
  ∀ s : State,
    exec .clsReset s = .next { s with owPc := .reset }
    ∧ exec .clsZero s = .next { s with owPc := .zero }
    ∧ exec .clsOne s = .next { s with owPc := .one }
    ∧ exec .clsUnknown s = .next { s with owPc := .unknown }

/-! ## The classifier and the scanner -/

/-- CLASSIFY over exact rationals of microseconds (R175), the bounds being held in nanoseconds (log 5). -/
def Obligations.ClassifierTestsInOrder : Prop :=
  ∀ (p : Profile) (num : Int) (den : Nat) (w : ℚ), 0 < den → w = (num : ℚ) / den →
    classify p ⟨num, den⟩ =
      if (p.h.min : ℚ) / 1000 ≤ w ∧ w ≤ (p.h.max : ℚ) / 1000 then .reset
      else if (p.a.max : ℚ) / 1000 + (p.e.max : ℚ) / 1000 ≤ w ∧ w ≤ (p.c.max : ℚ) / 1000 then .zero
      else if (p.a.min : ℚ) / 1000 ≤ w ∧ w < (p.a.max : ℚ) / 1000 + (p.e.max : ℚ) / 1000 then .one
      else .unknown

/-- US is exact and TICKS of any rational number of microseconds rounds down, so `TICKS(US(dt)) = dt` and `US(TICKS(u)) <= u` (R172). TICKS of
a length held in nanoseconds (log 5) is the same function, and the two frame lengths are those of R173 and R174 with a negative length
taken as 0. -/
def Obligations.UnitConversionsAreExact : Prop :=
  (∀ (rate : Word) (dt : Int), rate ≠ 0#64 →
    ((us rate dt).num : ℚ) / (us rate dt).den = (dt : ℚ) * 1000000 / (rate.toNat : ℚ))
  ∧ (∀ (rate : Word) (u : Frac), 0 < u.den →
    ticksOf rate u = ⌊((u.num : ℚ) / u.den) * (rate.toNat : ℚ) / 1000000⌋)
  ∧ (∀ (rate : Word) (dt : Int), rate ≠ 0#64 → ticksOf rate (us rate dt) = dt)
  ∧ (∀ (rate : Word) (u : Frac), rate ≠ 0#64 → 0 < u.den →
    ((us rate (ticksOf rate u)).num : ℚ) / (us rate (ticksOf rate u)).den ≤ (u.num : ℚ) / u.den)
  ∧ (∀ (rate : Word) (ns : Nat), (ticks rate ns : Int) = ⌊((ns : ℚ) / 1000) * (rate.toNat : ℚ) / 1000000⌋)
  ∧ (∀ p : Profile, (bitFrame p : ℚ) / 1000
      = max 0 (max ((p.a.min : ℚ) / 1000 + (p.b.min : ℚ) / 1000) ((p.c.min : ℚ) / 1000 + (p.d.min : ℚ) / 1000) - 1))
  ∧ (∀ p : Profile, (resetFrame p : ℚ) / 1000
      = max 0 ((p.g.min : ℚ) / 1000 + (p.h.min : ℚ) / 1000 + (p.i.min : ℚ) / 1000 + (p.j.min : ℚ) / 1000 - 1))

/-- WINDOW of `S < E ≤ N` in a capture with strictly rising times: the times given by R156, the start before the end, and the entries
between them exactly those from `S` up to but not including `E`. -/
def Obligations.WindowHoldsItsEntries : Prop :=
  ∀ (m : Memory) (lo hi : Nat), m.wf = true → lo < hi → hi ≤ m.length →
    ∃ t0 t1 : Int, window m lo hi = some (t0, t1)
      ∧ (∀ x, m[lo]? = some x → t0 = x.time)
      ∧ (∀ x, m[hi]? = some x → t1 = x.time)
      ∧ (∀ x, hi = m.length → m[m.length - 1]? = some x → t1 = x.time + 1)
      ∧ t0 < t1
      ∧ ∀ (i : Nat) (x : Sample), m[i]? = some x → ((t0 ≤ x.time ∧ x.time < t1) ↔ (lo ≤ i ∧ i < hi))

/-- The slave counts as present when the line, after its first rising edge since `f`, falls again no later than `iMax`, both edges
strictly before the end of the search window (R196, R181). -/
def Obligations.PresenceIsReleaseThenPull : Prop :=
  ∀ (m : Memory) (rate : Word) (mask : ChannelBits) (p : Profile) (f wEnd : Int), rate ≠ 0#64 →
    (presence m rate mask p f wEnd = true ↔
      ∃ i x j y, edgeWithin m f wEnd mask .rising i x ∧ (∀ k z, k < i → ¬edgeWithin m f wEnd mask .rising k z)
        ∧ edgeWithin m x.time wEnd mask .falling j y ∧ (∀ k z, k < j → ¬edgeWithin m x.time wEnd mask .falling k z)
        ∧ ((y.time - x.time : Int) : ℚ) * 1000000 / (rate.toNat : ℚ) ≤ (p.i.max : ℚ) / 1000)

/-! ## The 1-Wire engine -/

/-- OW.INIT (R192, R401): the first entry of the window with the line high starts the decode; without one the run ends FAILED with
NO_IDLE, the END record being the only one. OW.INIT as a step of its own after START, and END and the status taking effect in the step
after it, where R401 has them in the raising step, are the model's division (log 7, log 17, log 18). -/
def Obligations.OneWireInitFindsIdleOrFails : Prop :=
  ∀ s : State, s.owOut.status.state = .running → s.owPc = .init → s.ops = [] →
    (∀ i x, s.owWork.winS ≤ i → i < s.owWork.winE → s.samples[i]? = some x → x.val &&& s.owWork.mask ≠ 0#32 →
      (∀ j y, s.owWork.winS ≤ j → j < i → s.samples[j]? = some y → y.val &&& s.owWork.mask = 0#32) →
      engineTurn .ow s = .next { s with cur := .ow, owPc := .loop, owWork := { s.owWork with
        bitCount := 8, byteValue := 0#8, byteStart := none, cursor := x.time } })
    ∧ ((∀ i x, s.owWork.winS ≤ i → i < s.owWork.winE → s.samples[i]? = some x → x.val &&& s.owWork.mask = 0#32) →
      ∃ t, engineTurn .ow s = .next t
        ∧ step t = .next { s with cur := .ow, owPc := .idle, owOut := { s.owOut with
            status := ⟨.failed, .noIdle, false⟩
            stream := s.owOut.stream ++ [[headerWord 0x03 0xFF 3 1 2, s.owOut.symcnt, s.owOut.errcnt]] } })

/-- OW.LOOP without a pending CANCEL, and OW.SCAN (R193, R194): the next falling edge, the rising edge after it or the end of the window,
and the class of the width between them; no falling edge ends the run. The rule goes to the class's handler in this step; in the model
the class is a waiting word that does so when it is carried out (log 7, log 9). -/
def Obligations.OneWireScanClassifiesNextPulse : Prop :=
  ∀ s : State, s.owOut.status.state = .running →
    (s.owPc = .loop → s.owOut.status.cancelPending = false →
      engineTurn .ow s = .next { s with cur := .ow, owPc := if s.owWork.cursor < s.owWork.tEnd then .scan else .done })
    ∧ (s.owPc = .scan → findEdge s.samples s.owWork.cursor s.owWork.tEnd s.owWork.mask .falling = none →
      engineTurn .ow s = .next { s with cur := .ow, owPc := .done })
    ∧ (∀ (a : Hit) (r : Int), s.owPc = .scan →
      findEdge s.samples s.owWork.cursor s.owWork.tEnd s.owWork.mask .falling = some a →
      ((∃ b, findEdge s.samples a.time s.owWork.tEnd s.owWork.mask .rising = some b ∧ r = b.time)
        ∨ (findEdge s.samples a.time s.owWork.tEnd s.owWork.mask .rising = none ∧ r = s.owWork.tEnd)) →
      engineTurn .ow s = .next { s with
        cur := .ow, owWork := { s.owWork with f := a.time, r := r }
        ops := .cls (classify s.owWork.profile (us s.sbRate (r - a.time))).code :: s.ops })

/-- OW.RESET and OW.UNKNOWN (R197, R200). A reset: the symbol over the pulse with its presence flag, the byte in progress dropped, the
cursor one reset frame after the falling edge. An unknown pulse: a BusError at the start of the byte in progress, or at the pulse when
there is none, the byte in progress dropped, the cursor at the falling edge. The symbol, which the rules append and emit in this step, is
a waiting word in the model (log 7). -/
def Obligations.OneWireResetAndUnknownHandlers : Prop :=
  ∀ s : State, s.owOut.status.state = .running →
    (∀ c, s.owPc = .reset → c = s.owWork.f + s.owWork.resetTicks →
      engineTurn .ow s = .next { s with
        cur := .ow, owPc := .progress
        owWork := { s.owWork with bitCount := 8, byteValue := 0#8, byteStart := none, cursor := c }
        ops := .record [headerWord 0x10 s.owWork.line.toNat 0
            (presence s.samples s.sbRate s.owWork.mask s.owWork.profile s.owWork.f (min c s.owWork.tEnd)).toNat 2,
          intWord s.owWork.f, intWord s.owWork.r] :: s.ops })
    ∧ (∀ t, s.owPc = .unknown →
      ((s.owWork.bitCount < 8 ∧ s.owWork.byteStart = some t) ∨ (8 ≤ s.owWork.bitCount ∧ t = s.owWork.f)) →
      engineTurn .ow s = .next { s with
        cur := .ow, owPc := .progress
        owWork := { s.owWork with bitCount := 8, byteValue := 0#8, byteStart := none, cursor := s.owWork.f }
        ops := .record [headerWord 0x12 s.owWork.line.toNat 0 0 2, intWord t, intWord t] :: s.ops })

/-- OW.ZERO and OW.ONE with OW.BYTE (R198, R199, R201): the bit enters at bit 7, the first bit latches the byte's start, the cursor moves
one bit frame from the falling edge, and the eighth bit forms the byte's symbol and clears the accumulator. The symbol, which R201 appends
and emits in this step, is a waiting word in the model (log 7). -/
def Obligations.OneWireBitHandlers : Prop :=
  ∀ (s : State) (bit : Bool) (v : Byte) (c : Int), s.owOut.status.state = .running →
    s.owPc = (if bit then .one else .zero) →
    v = (s.owWork.byteValue >>> 1) ||| (if bit then 0x80#8 else 0x00#8) → c = s.owWork.f + s.owWork.bitTicks →
    (2 ≤ s.owWork.bitCount → s.owWork.bitCount ≤ 8 →
      engineTurn .ow s = .next { s with cur := .ow, owPc := .progress, owWork := { s.owWork with
        byteStart := if s.owWork.bitCount = 8 then some s.owWork.f else s.owWork.byteStart
        byteValue := v, bitCount := s.owWork.bitCount - 1, cursor := c } })
    ∧ (∀ t0, s.owWork.bitCount = 1 → s.owWork.byteStart = some t0 →
      engineTurn .ow s = .next { s with
        cur := .ow, owPc := .progress
        owWork := { s.owWork with bitCount := 8, byteValue := 0#8, byteStart := none, cursor := c }
        ops := .record [headerWord 0x11 s.owWork.line.toNat v.toNat 0 2, intWord t0, intWord c] :: s.ops })

/-- Eight bits in line order assemble with the first bit at bit 0 (R199, R85). -/
def Obligations.EightBitsAssembleFirstBitLowest : Prop :=
  ∀ (bits : List Bool) (v : Byte), bits.length = 8 →
    ∀ k : Nat, k < 8 → (bits.foldl shiftInBit v).getLsbD k = bits.getD k false

/-! ## Progress and the end of a run -/

/-- The progress records of the three engines: `floor` of the fraction done, clamped to 0..100 (R202, R258, R305). The record is a waiting word in the
model, and the progress register, which the rules write in this step, is written when it is carried out (log 7). -/
def Obligations.ProgressReportsFractionDone : Prop :=
  ∀ (s : State) (p : Nat),
    (s.owOut.status.state = .running → s.owPc = .progress → s.owWork.tStart < s.owWork.tEnd →
      (p : Int) = max 0 (min 100 ⌊((s.owWork.cursor - s.owWork.tStart : Int) : ℚ) * 100 / ((s.owWork.tEnd - s.owWork.tStart : Int) : ℚ)⌋) →
      engineTurn .ow s = .next { s with cur := .ow, owPc := .loop, ops := .record [headerWord 0x02 0xFF p 0 0] :: s.ops })
    ∧ (s.jtOut.status.state = .running → s.jtPc = .progress → s.jtWork.winS < s.jtWork.winE →
      (p : Int) = max 0 (min 100 ⌊((s.jtWork.idx : ℚ) - s.jtWork.winS) * 100 / ((s.jtWork.winE : ℚ) - s.jtWork.winS)⌋) →
      engineTurn .jtag s = .next { s with cur := .jtag, jtPc := .scan, ops := .record [headerWord 0x02 0xFF p 0 0] :: s.ops })
    ∧ (∀ l, s.uaOut.status.state = .running → s.uaPc = .progress → s.uaWork.lanes[s.uaWork.lane]? = some l →
      s.uaWork.tStart < s.uaWork.tEnd →
      (p : Int) = max 0 (min 100 ⌊((s.uaWork.lane : ℚ)
        + max 0 (min 1 (((s.uaWork.cursor - s.uaWork.tStart : Int) : ℚ) / ((s.uaWork.tEnd - s.uaWork.tStart : Int) : ℚ)))) * 100
          / (s.uaWork.lanes.length : ℚ)⌋) →
      engineTurn .uart s = .next { s with
        cur := .uart, uaPc := if l.kind = .rx ∨ l.kind = .tx then .lane else .hs
        ops := .record [headerWord 0x02 0xFF p 0 0] :: s.ops })

/-- The percentages never decrease as the cursor advances, and for the UART as the pair of lane and cursor does (R348). -/
def Obligations.ProgressNeverDecreases : Prop :=
  (∀ a b whole : Int, 0 < whole → a ≤ b → (percentOf a whole).toNat ≤ (percentOf b whole).toNat ∧ (percentOf b whole).toNat ≤ 100)
  ∧ (∀ (j k lanes : Nat) (a b whole : Int), 0 < whole → j < lanes → k < lanes → (j < k ∨ j = k ∧ a ≤ b) →
    (lanePercent j lanes a whole).toNat ≤ (lanePercent k lanes b whole).toNat ∧ (lanePercent k lanes b whole).toNat ≤ 100)

/-- A CANCEL pending at a check point ends the run CANCELLED (R410): no PROGRESS, an END record with the counters as they stand, the
pending bit cleared, no symbol, the other engines and the host's side untouched. The result memory stays as R357 has the model leave it;
a host must not rely on it (log 25). That the check point and the END step are steps of their own is the model's choice (log 7, log 18). -/
def Obligations.PendingCancelEndsRunAtCheckPoint : Prop :=
  ∀ (s : State) (e : EngineId), (s.out e).status.state = .running → (s.out e).status.cancelPending = true →
    atCheckPoint e s → s.ops = [] →
    ∃ t u v : State, engineTurn e s = .next t ∧ engineTurn e t = .next u ∧ step u = .next v
      ∧ t.ops = [] ∧ v.ops = []
      ∧ v.out e = { s.out e with
          status := ⟨.cancelled, .none, false⟩
          stream := (s.out e).stream ++ [[headerWord 0x03 0xFF 4 0 2, (s.out e).symcnt, (s.out e).errcnt]] }
      ∧ othersKept e s v ∧ hostSideKept s v

/-- A run that ends normally reports 100 and then ends DONE (R203, R259, R311): progress register, PROGRESS record, END record and status
register, in this order and with nothing between. The division into steps is the model's (log 7, log 18). -/
def Obligations.NormalEndReportsHundredThenDone : Prop :=
  ∀ (s : State) (e : EngineId), (s.out e).status.state = .running → atDone e s → s.ops = [] →
    ∃ t u v : State, engineTurn e s = .next t ∧ step t = .next u ∧ step u = .next v ∧ v.ops = []
      ∧ v.out e = { s.out e with
          status := ⟨.done, .none, false⟩
          progress := 100#64
          stream := (s.out e).stream ++ [[headerWord 0x02 0xFF 100 0 0],
            [headerWord 0x03 0xFF 2 0 2, (s.out e).symcnt, (s.out e).errcnt]] }
      ∧ othersKept e s v ∧ hostSideKept s v

/-! ## The JTAG engine -/

/-- JTAG.INIT and JTAG.SCAN without a pending CANCEL, and the sampling of JTAG.STEP (R251, R252, R253): the state is TEST_LOGIC_RESET at the
start, the next rising edge of TCK is taken, TMS is read in that very entry, and the row of the current state is what is carried out. R253
writes `jt.current` in this step; in the model the row is a waiting word that does so when it is carried out (log 7, log 9). -/
def Obligations.JtagScanTakesRowAtClockEdge : Prop :=
  ∀ s : State, s.jtOut.status.state = .running →
    (s.jtPc = .init → s.jtWork.winS = s.jtWork.winE →
      engineTurn .jtag s = .next { s with cur := .jtag, jtPc := .done, jtWork := { s.jtWork with
        current := .testLogicReset, previous := .testLogicReset, spanStart := s.jtWork.winS, idx := s.jtWork.winS
        tdiAcc := [], tdoAcc := [], shiftFirst := none, shiftLast := none } })
    ∧ (∀ t0 t1, s.jtPc = .init → s.jtWork.winS < s.jtWork.winE → window s.samples s.jtWork.winS s.jtWork.winE = some (t0, t1) →
      engineTurn .jtag s = .next { s with cur := .jtag, jtPc := .scan, jtWork := { s.jtWork with
        current := .testLogicReset, previous := .testLogicReset, spanStart := s.jtWork.winS, idx := s.jtWork.winS
        tdiAcc := [], tdoAcc := [], shiftFirst := none, shiftLast := none, tStart := t0, tEnd := t1 } })
    ∧ (∀ x, s.jtPc = .scan → s.jtOut.status.cancelPending = false → s.samples[s.jtWork.idx]? = some x →
      (findEdge s.samples x.time s.jtWork.tEnd (1#32 <<< s.jtWork.tck.toNat) .rising = none →
        engineTurn .jtag s = .next { s with cur := .jtag, jtPc := .done })
      ∧ ∀ a, findEdge s.samples x.time s.jtWork.tEnd (1#32 <<< s.jtWork.tck.toNat) .rising = some a →
        engineTurn .jtag s = .next { s with cur := .jtag, jtPc := .step, jtWork := { s.jtWork with idx := a.idx } })
    ∧ (∀ x, s.jtPc = .step → s.samples[s.jtWork.idx]? = some x → s.jtWork.tms.toNat < 32 →
      engineTurn .jtag s = .next { s with
        cur := .jtag, jtPc := .clear
        ops := .tap (BitVec.ofNat 5 (2 * s.jtWork.current.code.toNat + (x.val.getLsbD s.jtWork.tms.toNat).toNat)) :: s.ops })

/-- JTAG.CLEAR and JTAG.SHIFT (R254, R255): entering a Capture state clears the accumulators, a Shift state prepends one bit of each
present line. -/
def Obligations.JtagCaptureClearsShiftPrepends : Prop :=
  ∀ s : State, s.jtOut.status.state = .running →
    (s.jtPc = .clear → engineTurn .jtag s = .next { s with cur := .jtag, jtPc := .shift, jtWork :=
      if s.jtWork.current = .captureDr ∨ s.jtWork.current = .captureIr then
        { s.jtWork with tdiAcc := [], tdoAcc := [], shiftFirst := none, shiftLast := none }
      else s.jtWork })
    ∧ (∀ x, s.jtPc = .shift → s.samples[s.jtWork.idx]? = some x →
      (∀ ch, s.jtWork.tdi = some ch → ch.toNat < 32) → (∀ ch, s.jtWork.tdo = some ch → ch.toNat < 32) →
      engineTurn .jtag s = .next { s with cur := .jtag, jtPc := .update, jtWork :=
        if s.jtWork.current = .shiftDr ∨ s.jtWork.current = .shiftIr then
          { s.jtWork with
            shiftFirst := if s.jtWork.shiftFirst = none then some s.jtWork.idx else s.jtWork.shiftFirst
            shiftLast := some s.jtWork.idx
            tdiAcc := (s.jtWork.tdi.map fun ch => x.val.getLsbD ch.toNat).toList ++ s.jtWork.tdiAcc
            tdoAcc := (s.jtWork.tdo.map fun ch => x.val.getLsbD ch.toNat).toList ++ s.jtWork.tdoAcc }
        else s.jtWork })

/-- JTAG.UPDATE and JTAG.SPAN (R256, R257). In an Update state, when a bit has been shifted, one JT_SHIFT record is formed for each present
line, TDI before TDO. A change of state forms the span of the state left, up to this index, and opens the next one index later. The
records, which the rules append and emit in this step, are waiting words in the model (log 7). -/
def Obligations.JtagUpdateAndSpanEmit : Prop :=
  ∀ s : State, s.jtOut.status.state = .running →
    (∀ records : List Instr, s.jtPc = .update →
      ((s.jtWork.current ≠ .updateDr ∧ s.jtWork.current ≠ .updateIr ∧ records = [])
        ∨ ((s.jtWork.current = .updateDr ∨ s.jtWork.current = .updateIr) ∧ s.jtWork.shiftFirst = none ∧ records = [])
        ∨ ((s.jtWork.current = .updateDr ∨ s.jtWork.current = .updateIr) ∧ ∃ first last,
            s.jtWork.shiftFirst = some first ∧ s.jtWork.shiftLast = some last
            ∧ records = (s.jtWork.tdi.map fun ch => Instr.jtShiftTdi ch (shiftBody first last s.jtWork.tdiAcc)).toList
                ++ (s.jtWork.tdo.map fun ch => Instr.jtShiftTdo ch (shiftBody first last s.jtWork.tdoAcc)).toList)) →
      engineTurn .jtag s = .next { s with cur := .jtag, jtPc := .span, ops := records.map encode ++ s.ops })
    ∧ (s.jtPc = .span → s.jtWork.current = s.jtWork.previous →
      engineTurn .jtag s = .next { s with cur := .jtag, jtPc := .progress })
    ∧ (s.jtPc = .span → s.jtWork.current ≠ s.jtWork.previous →
      engineTurn .jtag s = .next { s with
        cur := .jtag, jtPc := .progress
        jtWork := { s.jtWork with spanStart := s.jtWork.idx + 1, previous := s.jtWork.current }
        ops := .record [headerWord 0x20 s.jtWork.tms.toNat s.jtWork.previous.code.toNat 0x80 2,
          natWord s.jtWork.spanStart, natWord s.jtWork.idx] :: s.ops })

/-! ## The UART engine -/

/-- The sample instants (R296): `floor(t0 + x * cell)` at quarters of a cell, never before the start edge, at the positions of the data
bits and of the stop samples. -/
def Obligations.UartSampleInstants : Prop :=
  (∀ (t0 num : Int) (den quarters : Nat), 0 < den →
    sampleTime t0 ⟨num, den⟩ quarters = ⌊(t0 : ℚ) + (quarters : ℚ) / 4 * ((num : ℚ) / den)⌋
    ∧ (0 ≤ num → t0 ≤ sampleTime t0 ⟨num, den⟩ quarters))
  ∧ (∀ n k : Nat, k < n → (dataPositions n)[k]? = some (4 * k + 6)) ∧ (∀ n : Nat, (dataPositions n).length = n)
  ∧ (∀ (n p : Nat), stopPositions n p .one = [4 * (1 + n + p) + 2]
      ∧ stopPositions n p .oneAndHalf = [4 * (1 + n + p) + 2, 4 * (1 + n + p) + 5]
      ∧ stopPositions n p .two = [4 * (1 + n + p) + 2, 4 * (1 + n + p) + 6])

/-- UART.LANE without a pending CANCEL, UART.STARTBIT and UART.CELL (R293, R294, R295): the next idle-to-active edge, and the cell from the
configured baud or, with baud 0, from the start pulse. -/
def Obligations.UartStartBitAndCell : Prop :=
  ∀ (s : State) (l : Lane), s.uaOut.status.state = .running → s.uaWork.lanes[s.uaWork.lane]? = some l →
    (s.uaPc = .lane → s.uaOut.status.cancelPending = false →
      engineTurn .uart s = .next { s with cur := .uart, uaPc := if s.uaWork.cursor < s.uaWork.tEnd then .startBit else .nextLane })
    ∧ (s.uaPc = .startBit →
      engineTurn .uart s = .next (match findEdge s.samples s.uaWork.cursor s.uaWork.tEnd (1#32 <<< l.chan.toNat)
          (if s.uaWork.frame.getLsbD 6 then .rising else .falling) with
        | none => { s with cur := .uart, uaPc := .nextLane }
        | some a => { s with cur := .uart, uaPc := .cell, uaWork := { s.uaWork with t0 := a.time } }))
    ∧ (s.uaPc = .cell → s.uaWork.baud ≠ 0#64 →
      engineTurn .uart s = .next { s with cur := .uart, uaPc := .fit, uaWork := { s.uaWork with
        cell := ⟨s.sbRate.toNat, s.uaWork.baud.toNat⟩ } })
    ∧ (s.uaPc = .cell → s.uaWork.baud = 0#64 →
      engineTurn .uart s = .next (match findEdge s.samples s.uaWork.t0 s.uaWork.tEnd (1#32 <<< l.chan.toNat)
          (if s.uaWork.frame.getLsbD 6 then .falling else .rising) with
        | none => { s with cur := .uart, uaPc := .nextLane }
        | some b => { s with cur := .uart, uaPc := .fit, uaWork := { s.uaWork with cell := ⟨b.time - s.uaWork.t0, 1⟩ } }))

/-- LEVEL (R151) is the channel's own bit in the value of the greatest entry at or before the time, and has no value before the first
entry. UART.DATA (R298): data bit `k` is the level at the centre of its cell, inverted when configured; the bits above the data bits
are 0. -/
def Obligations.UartDataSamplesCellCentres : Prop :=
  (∀ (m : Memory) (t : Int) (ch : Byte), ch.toNat < 32 →
    ((∃ x, m[0]? = some x ∧ x.time ≤ t) → ∃ i x, heldEntry m t i x ∧ level m t ch = some (x.val.getLsbD ch.toNat))
    ∧ ((∀ x, m[0]? = some x → t < x.time) → level m t ch = none))
  ∧ ∀ (s : State) (l : Lane) (lv : Nat → Bool), s.uaOut.status.state = .running → s.uaPc = .data →
    s.uaWork.lanes[s.uaWork.lane]? = some l →
    (∀ k, k < s.uaWork.frame.toNat % 4 + 5 →
      level s.samples (sampleTime s.uaWork.t0 s.uaWork.cell (4 * k + 6)) l.chan = some (lv k)) →
    ∃ v : Byte, engineTurn .uart s = .next { s with cur := .uart, uaPc := .parity, uaWork := { s.uaWork with value := v } }
      ∧ ∀ k, k < 8 → v.getLsbD k = (decide (k < s.uaWork.frame.toNat % 4 + 5) && (lv k ^^ s.uaWork.frame.getLsbD 6))

/-- UART.PARITY (R299, R300): without parity no error; otherwise the bit is sampled at `n + 3/2` cells and the number of ones of value and
bit is checked. LEVEL is as `UartDataSamplesCellCentres` has it. -/
def Obligations.UartParityCheck : Prop :=
  ∀ (s : State) (l : Lane), s.uaOut.status.state = .running → s.uaPc = .parity → s.uaWork.lanes[s.uaWork.lane]? = some l →
    (s.uaWork.frame.toNat / 4 % 4 = 0 →
      engineTurn .uart s = .next { s with cur := .uart, uaPc := .stop, uaWork := { s.uaWork with pe := false } })
    ∧ (∀ (lv pbit : Bool) (ones : Nat), s.uaWork.frame.toNat / 4 % 4 = 1 ∨ s.uaWork.frame.toNat / 4 % 4 = 2 →
      level s.samples (sampleTime s.uaWork.t0 s.uaWork.cell (4 * (s.uaWork.frame.toNat % 4 + 5) + 6)) l.chan = some lv →
      pbit = (lv ^^ s.uaWork.frame.getLsbD 6) →
      ones = ((List.range 8).filter fun k => s.uaWork.value.getLsbD k).length + pbit.toNat →
      engineTurn .uart s = .next { s with cur := .uart, uaPc := .stop, uaWork := { s.uaWork with
        pbit := pbit, pe := decide (ones % 2 = s.uaWork.frame.toNat / 4 % 4 - 1) } })

/-- UART.STOP (R301, R302): a frame error when at least one stop sample is not at the idle level. LEVEL is as
`UartDataSamplesCellCentres` has it. -/
def Obligations.UartStopCheck : Prop :=
  ∀ (s : State) (l : Lane) (lvs : List Bool) (n p : Nat) (stp : StopBits), s.uaOut.status.state = .running → s.uaPc = .stop →
    s.uaWork.lanes[s.uaWork.lane]? = some l →
    n = s.uaWork.frame.toNat % 4 + 5 →
    (s.uaWork.frame.toNat / 4 % 4 = 0 ∧ p = 0 ∨ s.uaWork.frame.toNat / 4 % 4 ∈ [1, 2] ∧ p = 1) →
    (s.uaWork.frame.toNat / 16 % 4 = 0 ∧ stp = .one ∨ s.uaWork.frame.toNat / 16 % 4 = 1 ∧ stp = .oneAndHalf
      ∨ s.uaWork.frame.toNat / 16 % 4 = 2 ∧ stp = .two) →
    (stopPositions n p stp).map (fun q => level s.samples (sampleTime s.uaWork.t0 s.uaWork.cell q) l.chan) = lvs.map some →
    engineTurn .uart s = .next { s with cur := .uart, uaPc := .emit, uaWork := { s.uaWork with
      fe := lvs.any fun lv => lv == s.uaWork.frame.getLsbD 6 } }

/-- UART.EMIT and UART.RESUME (R303, R304): the Data symbol from the start edge to the last stop sample, flags included, then the cursor at
the last stop sample. The symbol, which R303 appends and emits in this step, is a waiting word in the model (log 7). -/
def Obligations.UartEmitThenResume : Prop :=
  ∀ (s : State) (l : Lane), s.uaOut.status.state = .running → s.uaWork.lanes[s.uaWork.lane]? = some l →
    (s.uaPc = .emit → l.kind = .rx ∨ l.kind = .tx →
      engineTurn .uart s = .next { s with
        cur := .uart, uaPc := .resume
        ops := .record [headerWord 0x30 l.chan.toNat s.uaWork.value.toNat
          (s.uaWork.pe.toNat + 2 * s.uaWork.fe.toNat + (if l.kind = .tx then 4 else 0)) 2,
          intWord s.uaWork.t0, intWord s.uaWork.tLast] :: s.ops })
    ∧ (s.uaPc = .resume →
      engineTurn .uart s = .next { s with cur := .uart, uaPc := .progress, uaWork := { s.uaWork with cursor := s.uaWork.tLast } })

/-- UART.HS and UART.HSEVENT (R306, R307, R308): the earlier of the next rising and falling edge is reported with its label, as a point,
and the cursor goes there; with neither edge the lane ends. That the report is a step after the search, the event being held in `evTime`
and `evLevel`, and that the symbol is a waiting word are the model's choices (log 7, log 19). -/
def Obligations.UartHandshakeReportsEdges : Prop :=
  ∀ (s : State) (l : Lane) (line : Nat), s.uaOut.status.state = .running → s.uaWork.lanes[s.uaWork.lane]? = some l →
    [LaneKind.cts, .rts, .dtr, .dsr, .dcd, .ri][line]? = some l.kind →
    (s.uaPc = .hs → s.uaOut.status.cancelPending = false →
      (∀ dir, findEdge s.samples s.uaWork.cursor s.uaWork.tEnd (1#32 <<< l.chan.toNat) dir = none) →
      engineTurn .uart s = .next { s with cur := .uart, uaPc := .nextLane })
    ∧ (∀ (dir : EdgeDir) (a : Hit), s.uaPc = .hs → s.uaOut.status.cancelPending = false →
      findEdge s.samples s.uaWork.cursor s.uaWork.tEnd (1#32 <<< l.chan.toNat) dir = some a →
      (∀ dir' b, dir' ≠ dir → findEdge s.samples s.uaWork.cursor s.uaWork.tEnd (1#32 <<< l.chan.toNat) dir' = some b → a.time < b.time) →
      engineTurn .uart s = .next { s with cur := .uart, uaPc := .hsEvent, uaWork := { s.uaWork with
        evTime := a.time, evLevel := decide (dir = .rising) } })
    ∧ (s.uaPc = .hsEvent →
      engineTurn .uart s = .next { s with
        cur := .uart, uaPc := .progress
        uaWork := { s.uaWork with cursor := s.uaWork.evTime }
        ops := .record [headerWord 0x31 l.chan.toNat (2 * line + s.uaWork.evLevel.toNat) 0 2,
          intWord s.uaWork.evTime, intWord s.uaWork.evTime] :: s.ops })

/-- The frame must fit in the window (R297), and a lane's end goes to the next lane from the window's start, or ends the run (R310). -/
def Obligations.UartLaneEndsGoToNextLane : Prop :=
  ∀ s : State, s.uaOut.status.state = .running →
    (∀ last, s.uaPc = .fit →
      ((stopPositions (frameBits s.uaWork.frame) (parityCells (uaParityOf s.uaWork)) (uaStopOf s.uaWork)).map
        (sampleTime s.uaWork.t0 s.uaWork.cell)).getLast? = some last →
      engineTurn .uart s = .next { s with
        cur := .uart, uaPc := if last < s.uaWork.tEnd then .data else .nextLane
        uaWork := { s.uaWork with tLast := last } })
    ∧ (s.uaPc = .nextLane → s.uaWork.lanes[s.uaWork.lane + 1]? = none →
      engineTurn .uart s = .next { s with cur := .uart, uaPc := .done, uaWork := { s.uaWork with lane := s.uaWork.lane + 1 } })
    ∧ (∀ l, s.uaPc = .nextLane → s.uaWork.lanes[s.uaWork.lane + 1]? = some l →
      engineTurn .uart s = .next { s with
        cur := .uart, uaPc := if l.kind = .rx ∨ l.kind = .tx then .lane else .hs
        uaWork := { s.uaWork with lane := s.uaWork.lane + 1, cursor := s.uaWork.tStart } })

/-! ## Registers -/

/-- A host write to a configuration or argument register reads back, all 64 bits, legal or not (R381), but for `PR_MASK` and `PR_DIR`,
whose bits above the field read as zero (R40, R42; log 27), and changes no other register. -/
def Obligations.RegisterWriteStoresAndFrames : Prop :=
  ∀ (s : State) (n : Nat) (v : Word), n ∈ storedRegs →
    ∃ t, act (.writeReg n v) s = .next t ∧ readReg t n = readBack n v ∧ (∀ k, k ≠ n → readReg t k = readReg s k)
      ∧ t.samples = s.samples ∧ (∀ e, t.out e = s.out e) ∧ t.ops = s.ops
      ∧ t.owWork = s.owWork ∧ t.jtWork = s.jtWork ∧ t.uaWork = s.uaWork

/-- The special writes and the holes (R381, R51): a write to `CMD` stores nothing and makes the word wait, where R381 says that it executes
the command (the model's choice, log 1: the next step carries it out), a write to `BLK_STATUS` clears
`CMD_INVALID` on a 1 in bit 0, a write to a read-only register, to the profile image or to a hole does nothing; a hole and `CMD` read 0. -/
def Obligations.SpecialRegistersAndHoles : Prop :=
  ∀ (s : State) (n : Nat) (v : Word),
    act (.writeReg 0x07 v) s = .next { s with ops := .cmd v :: s.ops } ∧ readReg s 0x07 = 0#64
    ∧ act (.writeReg 0x06 v) s = .next { s with cmdInvalid := s.cmdInvalid && !v.getLsbD 0 }
    ∧ readReg s 0x06 = (if s.cmdInvalid then 1#64 else 0#64)
    ∧ (n ∈ readOnlyRegs ∨ profileReg n → act (.writeReg n v) s = .next s)
    ∧ (n ∉ storedRegs → n ∉ readOnlyRegs → ¬profileReg n → n ≠ 0x06 → n ≠ 0x07 →
      act (.writeReg n v) s = .next s ∧ readReg s n = 0#64)

/-- Every register number reads its own register (R23, R42 to R50), `PR_MASK` and `PR_DIR` their fields only (R40, R42; log 27), and
`0x40 + 0x20 * mode + 2 * w + k` the bound of window `w` in nanoseconds, `k` 0 for the minimum and 1 for the maximum (R55).
A register read has no side effect but its answer (R381), a status register reads `STATE` at 2:0, `CODE` at 7:4 and `CANCEL_PENDING` at 8
(R49), and `SB_COUNT` reads the number of entries (R23). Consuming takes the record at the head of a stream, and reading a result takes
nothing (R393). What the host gets is the model's `hostReply`, and an empty stream gives nothing (log 20). -/
def Obligations.HostReadsAndConsumes : Prop :=
  ∀ (s : State) (e : EngineId) (n : Nat),
    act (.readReg n) s = .next { s with hostReply := [readReg s n] }
    ∧ readReg s 0x00 = natWord s.samples.length
    ∧ readReg s (match e with | .ow => 0x18 | .jtag => 0x28 | .uart => 0x3C)
        = natWord ((s.out e).status.state.code.toNat + 16 * (s.out e).status.code.code.toNat
            + 256 * (s.out e).status.cancelPending.toNat)
    ∧ (∀ r rest, (s.out e).stream = r :: rest →
      act (.consume e) s = .next { s.setOut e { s.out e with stream := rest } with hostReply := r })
    ∧ ((s.out e).stream = [] → act (.consume e) s = .next { s with hostReply := [] })
    ∧ act (.readResult e n) s = .next { s with hostReply := (s.out e).result.getD n [] }
    ∧ (∀ p ∈ ([(0x01, s.sbRate), (0x02, s.sbTrig),
          (0x08, s.prT0), (0x09, s.prT1), (0x0A, s.prMask &&& 0xFFFFFFFF#64), (0x0B, s.prDir &&& 1#64),
          (0x0C, s.prResIdx), (0x0D, s.prResTs), (0x0E, s.prResVal), (0x0F, s.prStat),
          (0x10, s.owConfig.winS), (0x11, s.owConfig.winE), (0x12, s.owConfig.line), (0x13, s.owConfig.mode),
          (0x19, s.owOut.progress), (0x1A, s.owOut.symcnt), (0x1B, s.owOut.errcnt),
          (0x20, s.jtConfig.winS), (0x21, s.jtConfig.winE), (0x22, s.jtConfig.tck), (0x23, s.jtConfig.tms),
          (0x24, s.jtConfig.tdi), (0x25, s.jtConfig.tdo),
          (0x29, s.jtOut.progress), (0x2A, s.jtOut.symcnt), (0x2B, s.jtOut.errcnt),
          (0x30, s.uaConfig.winS), (0x31, s.uaConfig.winE), (0x32, s.uaConfig.rxd), (0x33, s.uaConfig.txd),
          (0x34, s.uaConfig.cts), (0x35, s.uaConfig.rts), (0x36, s.uaConfig.dtr), (0x37, s.uaConfig.dsr),
          (0x38, s.uaConfig.dcd), (0x39, s.uaConfig.ri), (0x3A, s.uaConfig.frame), (0x3B, s.uaConfig.baud),
          (0x3D, s.uaOut.progress), (0x3E, s.uaOut.symcnt), (0x3F, s.uaOut.errcnt)] : List (Nat × Word)),
        readReg s p.1 = p.2)
    ∧ ∀ (mode : OwMode) (p : Profile) (w : Nat) (bounds : TimingWindow), p = Config.owProfile mode →
        [p.a, p.b, p.c, p.d, p.e, p.g, p.h, p.i, p.j][w]? = some bounds →
        readReg s (0x40 + 0x20 * (if mode = .overdrive then 1 else 0) + 2 * w) = natWord bounds.min
        ∧ readReg s (0x40 + 0x20 * (if mode = .overdrive then 1 else 0) + 2 * w + 1) = natWord bounds.max

/-! ## The block as a whole -/

/-- A step of an engine reads no configuration register: other values there give the same step (R57). -/
def Obligations.RunningEngineIgnoresConfiguration : Prop :=
  ∀ (e : EngineId) (s : State) (c : OwConfig) (j : JtConfig) (u : UaConfig),
    engineTurn e { s with owConfig := c, jtConfig := j, uaConfig := u } =
      match engineTurn e s with
      | .next t => .next { t with owConfig := c, jtConfig := j, uaConfig := u }
      | .fault f => .fault f
      | .refused r => .refused r

/-- A step of one engine writes nothing of another engine and nothing of the host's side, and depends on nothing of another engine (R92,
R86). That it leaves its own stream, result memory and counters too and only adds waiting words is the model's choice (log 7): the records
take effect when those words are carried out. -/
def Obligations.EnginesDoNotInterfere : Prop :=
  (∀ (e : EngineId) (s t : State), engineTurn e s = .next t →
    othersKept e s t ∧ hostSideKept s t ∧ t.out e = s.out e ∧ ∃ formed, t.ops = formed ++ s.ops)
  ∧ ∀ (e : EngineId) (s s' t : State), sameForEngine e s s' → engineTurn e s = .next t →
    ∃ t' formed, engineTurn e s' = .next t' ∧ sameForEngine e t t' ∧ t.ops = formed ++ s.ops ∧ t'.ops = formed ++ s'.ops

/-- No step writes the sample memory or its attributes, but the acquisition's own action while no engine is RUNNING (R86, R58). -/
def Obligations.OnlyAcquisitionWritesSamples : Prop :=
  ∀ s t : State, step s = .next t →
    (t.samples = s.samples ∧ t.sbRate = s.sbRate ∧ t.sbTrig = s.sbTrig)
    ∨ (s.ops = [] ∧ (∀ e, (s.out e).status.state ≠ .running) ∧ ∃ m r g rest, s.inbox = .capture m r g :: rest
        ∧ t = { s with samples := m, sbRate := r, sbTrig := g, inbox := rest })

/-- The state right after reset: every register reset touches reads its reset value (R70), no engine runs, nothing is in a stream or a
result memory; the empty capture is the model's choice (log 2), and so is the absence of waiting actions (log 1). -/
def Obligations.ResetStateReadsResetValues : Prop :=
  (∀ n, keptByReset n = false → readReg State.reset n = resetWord n)
  ∧ (∀ e, State.reset.out e = ⟨⟨.idle, .none, false⟩, 0#64, 0#64, 0#64, [], []⟩)
  ∧ State.reset.samples = [] ∧ step State.reset = .next State.reset

/-- The invariants of `OutputsStayLegal` and `SafeStatesNeverStop` hold right after reset. -/
def Obligations.ResetStateIsSafe : Prop :=
  State.reset.outputsLegal = true ∧ State.reset.safe = true

/-- In every engine: the result memory holds well-formed symbols of that engine, `SYMCNT` is their number and `ERRCNT` the sum of their
error weights, the stream holds well-formed records, progress is at most 100, and a CANCEL is pending only while RUNNING. Every step
keeps this (R342, R343, R87, R388). -/
def Obligations.OutputsStayLegal : Prop :=
  ∀ s t : State, s.outputsLegal = true → step s = .next t → t.outputsLegal = true

/-- From a safe state a step answers a safe state, unless the acquisition changes the capture under a RUNNING engine: no run reads outside
the sample memory, before its first entry, or outside its lanes, and no engine forms a malformed record (R80, R296, R310; log 11, 12, 13). -/
def Obligations.SafeStatesNeverStop : Prop :=
  ∀ s : State, s.safe = true →
    (∃ t, step s = .next t ∧ t.safe = true) ∨ (captureClash s ∧ step s = .fault .captureChangedWhileRunning)

/-! ## Serialised sample memory -/

/-- A serialised sample memory reads back, and in its image the byte of bits 7:0 of a timestamp or value comes first, as in a serialised
register or record word (R84). That an entry takes twelve bytes, the timestamp's eight and then the value's four, and that the entries
stand in index order with nothing between them is the model's choice (log 29). -/
def Obligations.MemoryImageIsLittleEndian : Prop :=
  (∀ (m : Memory) (rest : List Byte), takeSamples m.length (memoryBytes m ++ rest) = some (m, rest))
  ∧ (∀ m : Memory, (memoryBytes m).length = 12 * m.length)
  ∧ (∀ (m : Memory) (i k : Nat) (x : Sample), m[i]? = some x →
      (k < 8 → (memoryBytes m)[12 * i + k]? = some (x.ts.extractLsb' (8 * k) 8))
      ∧ (k < 4 → (memoryBytes m)[12 * i + 8 + k]? = some (x.val.extractLsb' (8 * k) 8)))
  ∧ ∀ (w : Word) (k : Nat), k < 8 → (wordBytes w)[k]? = some (w.extractLsb' (8 * k) 8)
end

