-- ==== Sys2Proof/Laws/Codec.lean ====
section
/-!
SUPPORT. Laws of the codes and of the header word: each field is read back where it was written (30_encoding.md R114, R120 to R123).
-/

namespace Sys2Proof

open Sys2Proof.Machine

/-- A TAP code names the state it was made from (30_encoding.md R120). -/
@[simp] theorem TapState.ofCode_code (t : TapState) : TapState.ofCode t.code = t := by cases t <;> rfl

/-- A run state code names the state it was made from (30_encoding.md R123). -/
@[simp] theorem RunState.ofCode_code (st : RunState) : RunState.ofCode st.code = some st := by cases st <;> rfl

/-- A failure code names the failure it was made from (30_encoding.md R123). -/
@[simp] theorem FailCode.ofCode_code (c : FailCode) : FailCode.ofCode c.code = some c := by cases c <;> rfl

/-- The header fields of a header word are the fields it was made from (30_encoding.md R114). -/
@[simp] theorem Header.ofWord_word (h : Header) : Header.ofWord h.word = h := by
  cases h
  simp only [Header.ofWord, Header.word, Header.mk.injEq]
  refine ⟨?_, ?_, ?_, ?_, ?_⟩ <;>
    · apply BitVec.eq_of_getLsbD_eq
      intro i hi
      simp only [BitVec.getLsbD_extractLsb', BitVec.getLsbD_append, hi, decide_true, Bool.true_and]
      split_ifs <;> first | omega | (congr 1; omega)

/-- A header word in plain arithmetic (30_encoding.md R114). -/
theorem Header.word_eq (h : Header) :
    h.word = headerWord h.kind.toNat h.chan.toNat h.sub.toNat h.flags.toNat h.len.toNat := by
  apply BitVec.eq_of_toNat_eq
  have h0 := h.kind.isLt
  have h1 := h.chan.isLt
  have h2 := h.sub.isLt
  have h3 := h.flags.isLt
  have h4 := h.len.isLt
  simp only [Header.word, BitVec.toNat_append, ← Nat.shiftLeft_add_eq_or_of_lt h3, ← Nat.shiftLeft_add_eq_or_of_lt h2,
    ← Nat.shiftLeft_add_eq_or_of_lt h1, ← Nat.shiftLeft_add_eq_or_of_lt h0]
  simp only [headerWord, natWord, BitVec.toNat_ofNat, Nat.shiftLeft_eq]
  rw [Nat.mod_eq_of_lt] <;> omega

/-- Masking a header word masks its fields (30_encoding.md R114). -/
theorem Header.word_and (h m : Header) :
    h.word &&& m.word = Header.word ⟨h.kind &&& m.kind, h.chan &&& m.chan, h.sub &&& m.sub, h.flags &&& m.flags, h.len &&& m.len⟩ := by
  simp only [Header.word, ← BitVec.and_append]

/-! ## Bytes of a serialisation (20_memory.md R84) -/

/-- A quantity serialises to as many bytes as it is given. -/
@[simp] theorem leBytes_length {width : Nat} (n : Nat) (v : BitVec width) : (leBytes n v).length = n := by simp [leBytes]

/-- Byte `k` of a serialised quantity holds its bits `8 k + 7` to `8 k`. -/
theorem leBytes_getElem? {width : Nat} {n k : Nat} (v : BitVec width) (hk : k < n) :
    (leBytes n v)[k]? = some (v.extractLsb' (8 * k) 8) := by simp [leBytes, hk]

/-- A serialised entry has twelve bytes (log 29). -/
@[simp] theorem sampleBytes_length (x : Machine.Sample) : (sampleBytes x).length = 12 := by simp [sampleBytes, wordBytes]

@[simp] theorem memoryBytes_nil : memoryBytes [] = [] := rfl

/-- An image starts with its first entry. -/
@[simp] theorem memoryBytes_cons (x : Machine.Sample) (m : Machine.Memory) :
    memoryBytes (x :: m) = sampleBytes x ++ memoryBytes m := rfl

end Sys2Proof
end

