-- ==== Sys2Proof/Laws/State.lean ====
section
/-!
SUPPORT. One lemma per field and update of the state: what `setOut`, `form`, `tapMove`, `owGoto` and `flagIllegalCommand` write,
and that they leave every other field.
-/

namespace Sys2Proof.Machine

/-! ## `setOut`: one engine's output side -/

@[simp] theorem out_setOut (e : EngineId) (s : State) (o : EngineOut) : (s.setOut e o).out e = o := by cases e <;> rfl

theorem out_setOut_ne {e f : EngineId} (h : f ≠ e) (s : State) (o : EngineOut) : (s.setOut e o).out f = s.out f := by
  cases e <;> cases f <;> first | rfl | exact absurd rfl h

@[simp] theorem setOut_out (e : EngineId) (s : State) : s.setOut e (s.out e) = s := by cases e <;> rfl

@[simp] theorem setOut_setOut (e : EngineId) (s : State) (o p : EngineOut) : (s.setOut e o).setOut e p = s.setOut e p := by
  cases e <;> rfl

@[simp] theorem setOut_samples (e : EngineId) (s : State) (o : EngineOut) : (s.setOut e o).samples = s.samples := by cases e <;> rfl
@[simp] theorem setOut_sbRate (e : EngineId) (s : State) (o : EngineOut) : (s.setOut e o).sbRate = s.sbRate := by cases e <;> rfl
@[simp] theorem setOut_sbTrig (e : EngineId) (s : State) (o : EngineOut) : (s.setOut e o).sbTrig = s.sbTrig := by cases e <;> rfl
@[simp] theorem setOut_cmdInvalid (e : EngineId) (s : State) (o : EngineOut) : (s.setOut e o).cmdInvalid = s.cmdInvalid := by cases e <;> rfl
@[simp] theorem setOut_prT0 (e : EngineId) (s : State) (o : EngineOut) : (s.setOut e o).prT0 = s.prT0 := by cases e <;> rfl
@[simp] theorem setOut_prT1 (e : EngineId) (s : State) (o : EngineOut) : (s.setOut e o).prT1 = s.prT1 := by cases e <;> rfl
@[simp] theorem setOut_prMask (e : EngineId) (s : State) (o : EngineOut) : (s.setOut e o).prMask = s.prMask := by cases e <;> rfl
@[simp] theorem setOut_prDir (e : EngineId) (s : State) (o : EngineOut) : (s.setOut e o).prDir = s.prDir := by cases e <;> rfl
@[simp] theorem setOut_prResIdx (e : EngineId) (s : State) (o : EngineOut) : (s.setOut e o).prResIdx = s.prResIdx := by cases e <;> rfl
@[simp] theorem setOut_prResTs (e : EngineId) (s : State) (o : EngineOut) : (s.setOut e o).prResTs = s.prResTs := by cases e <;> rfl
@[simp] theorem setOut_prResVal (e : EngineId) (s : State) (o : EngineOut) : (s.setOut e o).prResVal = s.prResVal := by cases e <;> rfl
@[simp] theorem setOut_prStat (e : EngineId) (s : State) (o : EngineOut) : (s.setOut e o).prStat = s.prStat := by cases e <;> rfl
@[simp] theorem setOut_owConfig (e : EngineId) (s : State) (o : EngineOut) : (s.setOut e o).owConfig = s.owConfig := by cases e <;> rfl
@[simp] theorem setOut_owWork (e : EngineId) (s : State) (o : EngineOut) : (s.setOut e o).owWork = s.owWork := by cases e <;> rfl
@[simp] theorem setOut_owPc (e : EngineId) (s : State) (o : EngineOut) : (s.setOut e o).owPc = s.owPc := by cases e <;> rfl
@[simp] theorem setOut_jtConfig (e : EngineId) (s : State) (o : EngineOut) : (s.setOut e o).jtConfig = s.jtConfig := by cases e <;> rfl
@[simp] theorem setOut_jtWork (e : EngineId) (s : State) (o : EngineOut) : (s.setOut e o).jtWork = s.jtWork := by cases e <;> rfl
@[simp] theorem setOut_jtPc (e : EngineId) (s : State) (o : EngineOut) : (s.setOut e o).jtPc = s.jtPc := by cases e <;> rfl
@[simp] theorem setOut_uaConfig (e : EngineId) (s : State) (o : EngineOut) : (s.setOut e o).uaConfig = s.uaConfig := by cases e <;> rfl
@[simp] theorem setOut_uaWork (e : EngineId) (s : State) (o : EngineOut) : (s.setOut e o).uaWork = s.uaWork := by cases e <;> rfl
@[simp] theorem setOut_uaPc (e : EngineId) (s : State) (o : EngineOut) : (s.setOut e o).uaPc = s.uaPc := by cases e <;> rfl
@[simp] theorem setOut_cur (e : EngineId) (s : State) (o : EngineOut) : (s.setOut e o).cur = s.cur := by cases e <;> rfl
@[simp] theorem setOut_ops (e : EngineId) (s : State) (o : EngineOut) : (s.setOut e o).ops = s.ops := by cases e <;> rfl
@[simp] theorem setOut_inbox (e : EngineId) (s : State) (o : EngineOut) : (s.setOut e o).inbox = s.inbox := by cases e <;> rfl
@[simp] theorem setOut_hostReply (e : EngineId) (s : State) (o : EngineOut) : (s.setOut e o).hostReply = s.hostReply := by cases e <;> rfl
@[simp] theorem setOut_tick (e : EngineId) (s : State) (o : EngineOut) : (s.setOut e o).tick = s.tick := by cases e <;> rfl

/-! ## `form`: the waiting operation words -/

@[simp] theorem form_ops (is : List Instr) (s : State) : (form is s).ops = is.map encode ++ s.ops := rfl

@[simp] theorem form_out (is : List Instr) (s : State) (e : EngineId) : (form is s).out e = s.out e := by cases e <;> rfl

@[simp] theorem form_samples (is : List Instr) (s : State) : (form is s).samples = s.samples := rfl
@[simp] theorem form_sbRate (is : List Instr) (s : State) : (form is s).sbRate = s.sbRate := rfl
@[simp] theorem form_sbTrig (is : List Instr) (s : State) : (form is s).sbTrig = s.sbTrig := rfl
@[simp] theorem form_cmdInvalid (is : List Instr) (s : State) : (form is s).cmdInvalid = s.cmdInvalid := rfl
@[simp] theorem form_prT0 (is : List Instr) (s : State) : (form is s).prT0 = s.prT0 := rfl
@[simp] theorem form_prT1 (is : List Instr) (s : State) : (form is s).prT1 = s.prT1 := rfl
@[simp] theorem form_prMask (is : List Instr) (s : State) : (form is s).prMask = s.prMask := rfl
@[simp] theorem form_prDir (is : List Instr) (s : State) : (form is s).prDir = s.prDir := rfl
@[simp] theorem form_prResIdx (is : List Instr) (s : State) : (form is s).prResIdx = s.prResIdx := rfl
@[simp] theorem form_prResTs (is : List Instr) (s : State) : (form is s).prResTs = s.prResTs := rfl
@[simp] theorem form_prResVal (is : List Instr) (s : State) : (form is s).prResVal = s.prResVal := rfl
@[simp] theorem form_prStat (is : List Instr) (s : State) : (form is s).prStat = s.prStat := rfl
@[simp] theorem form_owConfig (is : List Instr) (s : State) : (form is s).owConfig = s.owConfig := rfl
@[simp] theorem form_owWork (is : List Instr) (s : State) : (form is s).owWork = s.owWork := rfl
@[simp] theorem form_owOut (is : List Instr) (s : State) : (form is s).owOut = s.owOut := rfl
@[simp] theorem form_owPc (is : List Instr) (s : State) : (form is s).owPc = s.owPc := rfl
@[simp] theorem form_jtConfig (is : List Instr) (s : State) : (form is s).jtConfig = s.jtConfig := rfl
@[simp] theorem form_jtWork (is : List Instr) (s : State) : (form is s).jtWork = s.jtWork := rfl
@[simp] theorem form_jtOut (is : List Instr) (s : State) : (form is s).jtOut = s.jtOut := rfl
@[simp] theorem form_jtPc (is : List Instr) (s : State) : (form is s).jtPc = s.jtPc := rfl
@[simp] theorem form_uaConfig (is : List Instr) (s : State) : (form is s).uaConfig = s.uaConfig := rfl
@[simp] theorem form_uaWork (is : List Instr) (s : State) : (form is s).uaWork = s.uaWork := rfl
@[simp] theorem form_uaOut (is : List Instr) (s : State) : (form is s).uaOut = s.uaOut := rfl
@[simp] theorem form_uaPc (is : List Instr) (s : State) : (form is s).uaPc = s.uaPc := rfl
@[simp] theorem form_cur (is : List Instr) (s : State) : (form is s).cur = s.cur := rfl
@[simp] theorem form_inbox (is : List Instr) (s : State) : (form is s).inbox = s.inbox := rfl
@[simp] theorem form_hostReply (is : List Instr) (s : State) : (form is s).hostReply = s.hostReply := rfl
@[simp] theorem form_tick (is : List Instr) (s : State) : (form is s).tick = s.tick := rfl

/-! ## `tapMove`: the TAP controller -/

@[simp] theorem tapMove_jtWork (t : TapState) (s : State) : (tapMove t s).jtWork = { s.jtWork with current := t } := rfl
@[simp] theorem tapMove_samples (t : TapState) (s : State) : (tapMove t s).samples = s.samples := rfl
@[simp] theorem tapMove_sbRate (t : TapState) (s : State) : (tapMove t s).sbRate = s.sbRate := rfl
@[simp] theorem tapMove_sbTrig (t : TapState) (s : State) : (tapMove t s).sbTrig = s.sbTrig := rfl
@[simp] theorem tapMove_cmdInvalid (t : TapState) (s : State) : (tapMove t s).cmdInvalid = s.cmdInvalid := rfl
@[simp] theorem tapMove_prT0 (t : TapState) (s : State) : (tapMove t s).prT0 = s.prT0 := rfl
@[simp] theorem tapMove_prT1 (t : TapState) (s : State) : (tapMove t s).prT1 = s.prT1 := rfl
@[simp] theorem tapMove_prMask (t : TapState) (s : State) : (tapMove t s).prMask = s.prMask := rfl
@[simp] theorem tapMove_prDir (t : TapState) (s : State) : (tapMove t s).prDir = s.prDir := rfl
@[simp] theorem tapMove_prResIdx (t : TapState) (s : State) : (tapMove t s).prResIdx = s.prResIdx := rfl
@[simp] theorem tapMove_prResTs (t : TapState) (s : State) : (tapMove t s).prResTs = s.prResTs := rfl
@[simp] theorem tapMove_prResVal (t : TapState) (s : State) : (tapMove t s).prResVal = s.prResVal := rfl
@[simp] theorem tapMove_prStat (t : TapState) (s : State) : (tapMove t s).prStat = s.prStat := rfl
@[simp] theorem tapMove_owConfig (t : TapState) (s : State) : (tapMove t s).owConfig = s.owConfig := rfl
@[simp] theorem tapMove_owWork (t : TapState) (s : State) : (tapMove t s).owWork = s.owWork := rfl
@[simp] theorem tapMove_owOut (t : TapState) (s : State) : (tapMove t s).owOut = s.owOut := rfl
@[simp] theorem tapMove_owPc (t : TapState) (s : State) : (tapMove t s).owPc = s.owPc := rfl
@[simp] theorem tapMove_jtConfig (t : TapState) (s : State) : (tapMove t s).jtConfig = s.jtConfig := rfl
@[simp] theorem tapMove_jtOut (t : TapState) (s : State) : (tapMove t s).jtOut = s.jtOut := rfl
@[simp] theorem tapMove_jtPc (t : TapState) (s : State) : (tapMove t s).jtPc = s.jtPc := rfl
@[simp] theorem tapMove_uaConfig (t : TapState) (s : State) : (tapMove t s).uaConfig = s.uaConfig := rfl
@[simp] theorem tapMove_uaWork (t : TapState) (s : State) : (tapMove t s).uaWork = s.uaWork := rfl
@[simp] theorem tapMove_uaOut (t : TapState) (s : State) : (tapMove t s).uaOut = s.uaOut := rfl
@[simp] theorem tapMove_uaPc (t : TapState) (s : State) : (tapMove t s).uaPc = s.uaPc := rfl
@[simp] theorem tapMove_cur (t : TapState) (s : State) : (tapMove t s).cur = s.cur := rfl
@[simp] theorem tapMove_ops (t : TapState) (s : State) : (tapMove t s).ops = s.ops := rfl
@[simp] theorem tapMove_inbox (t : TapState) (s : State) : (tapMove t s).inbox = s.inbox := rfl
@[simp] theorem tapMove_hostReply (t : TapState) (s : State) : (tapMove t s).hostReply = s.hostReply := rfl
@[simp] theorem tapMove_tick (t : TapState) (s : State) : (tapMove t s).tick = s.tick := rfl

/-! ## `owGoto`: the next step of the 1-Wire engine -/

@[simp] theorem owGoto_owPc (pc : OwPc) (s : State) : (owGoto pc s).owPc = pc := rfl
@[simp] theorem owGoto_samples (pc : OwPc) (s : State) : (owGoto pc s).samples = s.samples := rfl
@[simp] theorem owGoto_sbRate (pc : OwPc) (s : State) : (owGoto pc s).sbRate = s.sbRate := rfl
@[simp] theorem owGoto_sbTrig (pc : OwPc) (s : State) : (owGoto pc s).sbTrig = s.sbTrig := rfl
@[simp] theorem owGoto_cmdInvalid (pc : OwPc) (s : State) : (owGoto pc s).cmdInvalid = s.cmdInvalid := rfl
@[simp] theorem owGoto_prT0 (pc : OwPc) (s : State) : (owGoto pc s).prT0 = s.prT0 := rfl
@[simp] theorem owGoto_prT1 (pc : OwPc) (s : State) : (owGoto pc s).prT1 = s.prT1 := rfl
@[simp] theorem owGoto_prMask (pc : OwPc) (s : State) : (owGoto pc s).prMask = s.prMask := rfl
@[simp] theorem owGoto_prDir (pc : OwPc) (s : State) : (owGoto pc s).prDir = s.prDir := rfl
@[simp] theorem owGoto_prResIdx (pc : OwPc) (s : State) : (owGoto pc s).prResIdx = s.prResIdx := rfl
@[simp] theorem owGoto_prResTs (pc : OwPc) (s : State) : (owGoto pc s).prResTs = s.prResTs := rfl
@[simp] theorem owGoto_prResVal (pc : OwPc) (s : State) : (owGoto pc s).prResVal = s.prResVal := rfl
@[simp] theorem owGoto_prStat (pc : OwPc) (s : State) : (owGoto pc s).prStat = s.prStat := rfl
@[simp] theorem owGoto_owConfig (pc : OwPc) (s : State) : (owGoto pc s).owConfig = s.owConfig := rfl
@[simp] theorem owGoto_owWork (pc : OwPc) (s : State) : (owGoto pc s).owWork = s.owWork := rfl
@[simp] theorem owGoto_owOut (pc : OwPc) (s : State) : (owGoto pc s).owOut = s.owOut := rfl
@[simp] theorem owGoto_jtConfig (pc : OwPc) (s : State) : (owGoto pc s).jtConfig = s.jtConfig := rfl
@[simp] theorem owGoto_jtWork (pc : OwPc) (s : State) : (owGoto pc s).jtWork = s.jtWork := rfl
@[simp] theorem owGoto_jtOut (pc : OwPc) (s : State) : (owGoto pc s).jtOut = s.jtOut := rfl
@[simp] theorem owGoto_jtPc (pc : OwPc) (s : State) : (owGoto pc s).jtPc = s.jtPc := rfl
@[simp] theorem owGoto_uaConfig (pc : OwPc) (s : State) : (owGoto pc s).uaConfig = s.uaConfig := rfl
@[simp] theorem owGoto_uaWork (pc : OwPc) (s : State) : (owGoto pc s).uaWork = s.uaWork := rfl
@[simp] theorem owGoto_uaOut (pc : OwPc) (s : State) : (owGoto pc s).uaOut = s.uaOut := rfl
@[simp] theorem owGoto_uaPc (pc : OwPc) (s : State) : (owGoto pc s).uaPc = s.uaPc := rfl
@[simp] theorem owGoto_cur (pc : OwPc) (s : State) : (owGoto pc s).cur = s.cur := rfl
@[simp] theorem owGoto_ops (pc : OwPc) (s : State) : (owGoto pc s).ops = s.ops := rfl
@[simp] theorem owGoto_inbox (pc : OwPc) (s : State) : (owGoto pc s).inbox = s.inbox := rfl
@[simp] theorem owGoto_hostReply (pc : OwPc) (s : State) : (owGoto pc s).hostReply = s.hostReply := rfl
@[simp] theorem owGoto_tick (pc : OwPc) (s : State) : (owGoto pc s).tick = s.tick := rfl

/-! ## `flagIllegalCommand`: the sticky bit -/

@[simp] theorem flagIllegalCommand_cmdInvalid (s : State) : (flagIllegalCommand s).cmdInvalid = true := rfl
@[simp] theorem flagIllegalCommand_samples (s : State) : (flagIllegalCommand s).samples = s.samples := rfl
@[simp] theorem flagIllegalCommand_sbRate (s : State) : (flagIllegalCommand s).sbRate = s.sbRate := rfl
@[simp] theorem flagIllegalCommand_sbTrig (s : State) : (flagIllegalCommand s).sbTrig = s.sbTrig := rfl
@[simp] theorem flagIllegalCommand_prT0 (s : State) : (flagIllegalCommand s).prT0 = s.prT0 := rfl
@[simp] theorem flagIllegalCommand_prT1 (s : State) : (flagIllegalCommand s).prT1 = s.prT1 := rfl
@[simp] theorem flagIllegalCommand_prMask (s : State) : (flagIllegalCommand s).prMask = s.prMask := rfl
@[simp] theorem flagIllegalCommand_prDir (s : State) : (flagIllegalCommand s).prDir = s.prDir := rfl
@[simp] theorem flagIllegalCommand_prResIdx (s : State) : (flagIllegalCommand s).prResIdx = s.prResIdx := rfl
@[simp] theorem flagIllegalCommand_prResTs (s : State) : (flagIllegalCommand s).prResTs = s.prResTs := rfl
@[simp] theorem flagIllegalCommand_prResVal (s : State) : (flagIllegalCommand s).prResVal = s.prResVal := rfl
@[simp] theorem flagIllegalCommand_prStat (s : State) : (flagIllegalCommand s).prStat = s.prStat := rfl
@[simp] theorem flagIllegalCommand_owConfig (s : State) : (flagIllegalCommand s).owConfig = s.owConfig := rfl
@[simp] theorem flagIllegalCommand_owWork (s : State) : (flagIllegalCommand s).owWork = s.owWork := rfl
@[simp] theorem flagIllegalCommand_owOut (s : State) : (flagIllegalCommand s).owOut = s.owOut := rfl
@[simp] theorem flagIllegalCommand_owPc (s : State) : (flagIllegalCommand s).owPc = s.owPc := rfl
@[simp] theorem flagIllegalCommand_jtConfig (s : State) : (flagIllegalCommand s).jtConfig = s.jtConfig := rfl
@[simp] theorem flagIllegalCommand_jtWork (s : State) : (flagIllegalCommand s).jtWork = s.jtWork := rfl
@[simp] theorem flagIllegalCommand_jtOut (s : State) : (flagIllegalCommand s).jtOut = s.jtOut := rfl
@[simp] theorem flagIllegalCommand_jtPc (s : State) : (flagIllegalCommand s).jtPc = s.jtPc := rfl
@[simp] theorem flagIllegalCommand_uaConfig (s : State) : (flagIllegalCommand s).uaConfig = s.uaConfig := rfl
@[simp] theorem flagIllegalCommand_uaWork (s : State) : (flagIllegalCommand s).uaWork = s.uaWork := rfl
@[simp] theorem flagIllegalCommand_uaOut (s : State) : (flagIllegalCommand s).uaOut = s.uaOut := rfl
@[simp] theorem flagIllegalCommand_uaPc (s : State) : (flagIllegalCommand s).uaPc = s.uaPc := rfl
@[simp] theorem flagIllegalCommand_cur (s : State) : (flagIllegalCommand s).cur = s.cur := rfl
@[simp] theorem flagIllegalCommand_ops (s : State) : (flagIllegalCommand s).ops = s.ops := rfl
@[simp] theorem flagIllegalCommand_inbox (s : State) : (flagIllegalCommand s).inbox = s.inbox := rfl
@[simp] theorem flagIllegalCommand_hostReply (s : State) : (flagIllegalCommand s).hostReply = s.hostReply := rfl
@[simp] theorem flagIllegalCommand_tick (s : State) : (flagIllegalCommand s).tick = s.tick := rfl

end Sys2Proof.Machine
end

