-- ==== Sys2Proof/Laws/Ops.lean ====
section
/-!
SUPPORT. What each shared operation can do, said once: which one field of which engine's output side it writes, and which answers it gives.
-/

namespace Sys2Proof.Machine

/-! ## The output side of an engine -/

/-- `emit` appends to the stream of the engine (45_emitter.md R340). -/
theorem emit_eq (e : EngineId) (r : Record) (s : State) :
    emit e r s = s.setOut e { s.out e with stream := (s.out e).stream ++ [r] } := rfl

/-- `emitProgress` writes the progress register and appends to the stream (45_emitter.md R347). -/
theorem emitProgress_eq (e : EngineId) (percent : Byte) (r : Record) (s : State) :
    emitProgress e percent r s =
      s.setOut e { s.out e with progress := percent.setWidth 64, stream := (s.out e).stream ++ [r] } := by
  cases e <;> rfl

/-- `takeEnd` writes the status register and appends to the stream (45_emitter.md R349). -/
theorem takeEnd_eq (e : EngineId) (st : RunState) (code : FailCode) (r : Record) (s : State) :
    takeEnd e st code r s =
      s.setOut e { s.out e with status := ⟨st, code, false⟩, stream := (s.out e).stream ++ [r] } := by
  cases e <;> rfl

/-- `setStatus` writes the status register only. -/
theorem setStatus_out (e : EngineId) (st : Status) (s : State) : (setStatus e st s).out e = { s.out e with status := st } := by
  cases e <;> rfl

/-- `CANCEL` sets the pending bit of a RUNNING engine and does nothing else (46_host_commands.md R387). -/
theorem cancelEngine_cases (e : EngineId) (s : State) :
    ((s.out e).status.state = .running ∧
      cancelEngine e s = s.setOut e { s.out e with status := { (s.out e).status with cancelPending := true } })
    ∨ ((s.out e).status.state ≠ .running ∧ cancelEngine e s = s) := by
  by_cases h : (s.out e).status.state = .running
  · exact .inl ⟨h, by simp [cancelEngine, State.running, h, setStatus]⟩
  · exact .inr ⟨h, by simp [cancelEngine, State.running, h]⟩

/-- The three ways a START goes: ignored, refused, or the engine's START step (46_host_commands.md R382). -/
theorem startEngine_cases (e : EngineId) (ok : Bool) (k : State → Result) (s : State) :
    ((s.out e).status.state = .running ∧ startEngine e ok k s = .next s)
    ∨ ((s.out e).status.state ≠ .running ∧ ok = false ∧ startEngine e ok k s = .next (refuseStart e s))
    ∨ ((s.out e).status.state ≠ .running ∧ ok = true ∧ startEngine e ok k s = k (acceptStart e s)) := by
  by_cases h : (s.out e).status.state = .running
  · exact .inl ⟨h, by simp [startEngine, State.running, h]⟩
  · cases ok
    · exact .inr (.inl ⟨h, rfl, by simp [startEngine, State.running, h]⟩)
    · exact .inr (.inr ⟨h, rfl, by simp [startEngine, State.running, h]⟩)

/-- What an accepted START leaves of the output side: RUNNING, zeros, an empty result memory, the stream (46_host_commands.md R383). -/
theorem acceptStart_out (e : EngineId) (s : State) :
    (acceptStart e s).out e = ⟨⟨.running, .none, false⟩, 0#64, 0#64, 0#64, (s.out e).stream, []⟩ := by
  cases e <;> rfl

/-- A refused START writes the status register and nothing else (60_exceptions.md R405). -/
theorem refuseStart_eq (e : EngineId) (s : State) :
    refuseStart e s = s.setOut e { s.out e with status := ⟨.failed, .cfgInvalid, false⟩ } := rfl

/-- `blockReset` keeps the capture (70_reset_and_hazards.md R440). -/
theorem blockReset_samples (s : State) :
    (blockReset s).samples = s.samples ∧ (blockReset s).sbRate = s.sbRate ∧ (blockReset s).sbTrig = s.sbTrig := ⟨rfl, rfl, rfl⟩

/-- `blockReset` leaves every output side at its reset value (70_reset_and_hazards.md R440). -/
theorem blockReset_out (s : State) (e : EngineId) : (blockReset s).out e = EngineOut.reset := by cases e <;> rfl

/-- `storeAnswer` keeps every engine and the capture (46_host_commands.md R389). -/
theorem storeAnswer_out (r : Option Hit) (s : State) (e : EngineId) :
    (storeAnswer r s).out e = s.out e ∧ (storeAnswer r s).samples = s.samples ∧ (storeAnswer r s).ops = s.ops := by
  cases r <;> cases e <;> exact ⟨rfl, rfl, rfl⟩

/-- Consuming removes at most the head of one stream (46_host_commands.md R393). -/
theorem consumeRecord_cases (e : EngineId) (s : State) :
    ((s.out e).stream = [] ∧ consumeRecord e s = { s with hostReply := [] })
    ∨ ∃ r rest, (s.out e).stream = r :: rest ∧
        consumeRecord e s = { s.setOut e { s.out e with stream := rest } with hostReply := r } := by
  cases h : (s.out e).stream with
  | nil => exact .inl ⟨rfl, by simp [consumeRecord, h]⟩
  | cons r rest => exact .inr ⟨r, rest, rfl, by simp [consumeRecord, h]⟩

/-- The capture changes only while no engine is RUNNING (10_state.md R58). -/
theorem loadCapture_cases (m : Memory) (rate trigger : Word) (s : State) :
    (runningEngines s = [] ∧ loadCapture m rate trigger s = .next { s with samples := m, sbRate := rate, sbTrig := trigger })
    ∨ (runningEngines s ≠ [] ∧ loadCapture m rate trigger s = .fault .captureChangedWhileRunning) := by
  by_cases h : runningEngines s = []
  · exact .inl ⟨h, by simp [loadCapture, h]⟩
  · exact .inr ⟨h, by simp [loadCapture, h]⟩

/-! ## Words and turns -/

/-- A word is read when it decodes to a well-formed operation (30_encoding.md R125). -/
theorem readWord_eq_some {w : OpWord} {i : Instr} : readWord w = some i ↔ decode w = .ok i ∧ i.wf = true := by
  unfold readWord
  cases decode w with
  | error e => simp
  | ok j =>
    by_cases h : j.wf = true
    · simp only [h, if_true, Option.some.injEq, Except.ok.injEq]
      exact ⟨fun e => ⟨e, e ▸ h⟩, fun e => e.1⟩
    · simp only [h, Except.ok.injEq]
      exact ⟨fun e => by simp at e, fun e => absurd (e.1 ▸ e.2) h⟩

/-- What a step can be: a waiting word carried out or rejected, an outside action, an engine's turn, or nothing. -/
theorem step_cases (s : State) :
    (∃ w rest i, s.ops = w :: rest ∧ readWord w = some i ∧ step s = exec i { s with ops := rest })
    ∨ (∃ w rest, s.ops = w :: rest ∧ readWord w = none ∧ step s = rejectWord w { s with ops := rest })
    ∨ (∃ a rest, s.ops = [] ∧ s.inbox = a :: rest ∧ step s = act a { s with inbox := rest })
    ∨ (∃ e k, s.ops = [] ∧ s.inbox = [] ∧ step s = engineTurn e { s with tick := k })
    ∨ (s.ops = [] ∧ s.inbox = [] ∧ step s = .next s) := by
  by_cases ho : s.ops = []
  · by_cases hi : s.inbox = []
    · cases hr : runningEngines s with
      | nil => exact .inr (.inr (.inr (.inr ⟨ho, hi, by simp [step, fetch, ho, betweenWords, hi, hr]⟩)))
      | cons e es =>
        cases es with
        | nil =>
          exact .inr (.inr (.inr (.inl ⟨e, s.tick, ho, hi, show step s = engineTurn e s by
            simp [step, fetch, ho, betweenWords, hi, hr]⟩)))
        | cons f fs =>
          exact .inr (.inr (.inr (.inl ⟨_, _, ho, hi, by
            simp only [step, fetch, ho, betweenWords, hi, hr]
            rfl⟩)))
    · obtain ⟨a, rest, hi⟩ := List.exists_cons_of_ne_nil hi
      exact .inr (.inr (.inl ⟨a, rest, ho, hi, by simp [step, fetch, ho, betweenWords, hi]⟩))
  · obtain ⟨w, rest, ho⟩ := List.exists_cons_of_ne_nil ho
    cases hr : readWord w with
    | some i => exact .inl ⟨w, rest, i, ho, hr, by simp [step, fetch, ho, hr]⟩
    | none => exact .inr (.inl ⟨w, rest, ho, hr, by simp [step, fetch, ho, hr]⟩)

/-- An engine that is not RUNNING takes no step (10_state.md R29). -/
theorem engineTurn_idle {e : EngineId} {s : State} (h : (s.out e).status.state ≠ .running) : engineTurn e s = .next s := by
  simp [engineTurn, State.running, h]

/-- A RUNNING engine's turn is its next step, with the engine as the executing one. -/
theorem engineTurn_ow {s : State} (h : s.owOut.status.state = .running) : engineTurn .ow s = owStep { s with cur := .ow } := by
  simp [engineTurn, State.running, State.out, h]

theorem engineTurn_jtag {s : State} (h : s.jtOut.status.state = .running) : engineTurn .jtag s = jtStep { s with cur := .jtag } := by
  simp [engineTurn, State.running, State.out, h]

theorem engineTurn_uart {s : State} (h : s.uaOut.status.state = .running) : engineTurn .uart s = uaStep { s with cur := .uart } := by
  simp [engineTurn, State.running, State.out, h]

end Sys2Proof.Machine
end

