-- ==== Sys2Proof/Laws/Engines.lean ====
section
/-!
SUPPORT. What a step of an engine can write, said once per engine: its own working registers, its next step and the words it forms.
-/

namespace Sys2Proof.Machine

/-- A step of the 1-Wire engine writes its working registers, its next step and the waiting words, nothing else. -/
theorem owStep_writes {s t : State} (h : owStep s = .next t) :
    ∃ w pc formed, t = { s with owWork := w, owPc := pc, ops := formed ++ s.ops } := by
  have keep : ∀ w pc, t = { s with owWork := w, owPc := pc } →
      ∃ w pc formed, t = { s with owWork := w, owPc := pc, ops := formed ++ s.ops } := fun w pc e => ⟨w, pc, [], by simpa using e⟩
  unfold owStep at h
  split at h
  all_goals first
    | (simp only [owInit] at h; split at h <;> (injection h with h; subst h) <;> first | exact ⟨_, _, _, rfl⟩ | exact keep _ _ rfl)
    | (simp only [owLoop] at h; split_ifs at h <;> (injection h with h; subst h) <;> exact keep _ _ rfl)
    | (simp only [owScan] at h; split at h <;> (injection h with h; subst h) <;> first | exact ⟨_, _, _, rfl⟩ | exact keep _ _ rfl)
    | (simp only [owZero, owOne, owBit] at h; split_ifs at h <;> (injection h with h; subst h) <;> first | exact ⟨_, _, _, rfl⟩ | exact keep _ _ rfl)
    | (simp only [owReset, owUnknown, owProgress] at h; injection h with h; subst h; exact ⟨_, _, _, rfl⟩)
    | (injection h with h; subst h; first | exact keep _ _ rfl | exact ⟨_, _, _, rfl⟩)

/-- A step of the JTAG engine writes its working registers, its next step and the waiting words, nothing else. -/
theorem jtStep_writes {s t : State} (h : jtStep s = .next t) :
    ∃ w pc formed, t = { s with jtWork := w, jtPc := pc, ops := formed ++ s.ops } := by
  have keep : ∀ w pc, t = { s with jtWork := w, jtPc := pc } →
      ∃ w pc formed, t = { s with jtWork := w, jtPc := pc, ops := formed ++ s.ops } := fun w pc e => ⟨w, pc, [], by simpa using e⟩
  unfold jtStep at h
  split at h
  all_goals first
    | (simp only [jtInit] at h; split_ifs at h; (injection h with h; subst h; exact keep _ _ rfl); split at h; (injection h with h; subst h; exact keep _ _ rfl); cases h)
    | (simp only [jtScan] at h; split_ifs at h; (injection h with h; subst h; exact keep _ _ rfl); split at h; cases h; split at h <;> (injection h with h; subst h; exact keep _ _ rfl))
    | (simp only [jtStepEdge] at h; split at h; cases h; (injection h with h; subst h; exact ⟨_, _, _, rfl⟩))
    | (simp only [jtClear] at h; split_ifs at h <;> (injection h with h; subst h; exact keep _ _ rfl))
    | (simp only [jtShift] at h; split_ifs at h; (split at h; cases h; (injection h with h; subst h; exact keep _ _ rfl)); (injection h with h; subst h; exact keep _ _ rfl))
    | (simp only [jtUpdate, jtSpan] at h; split_ifs at h <;> (injection h with h; subst h) <;> first | exact ⟨_, _, _, rfl⟩ | exact keep _ _ rfl)
    | (simp only [jtProgress] at h; injection h with h; subst h; exact ⟨_, _, _, rfl⟩)
    | (injection h with h; subst h; first | exact keep _ _ rfl | exact ⟨_, _, _, rfl⟩)

/-- A step of the UART engine writes its working registers, its next step and the waiting words, nothing else. -/
theorem uaStep_writes {s t : State} (h : uaStep s = .next t) :
    ∃ w pc formed, t = { s with uaWork := w, uaPc := pc, ops := formed ++ s.ops } := by
  have keep : ∀ w pc, t = { s with uaWork := w, uaPc := pc } →
      ∃ w pc formed, t = { s with uaWork := w, uaPc := pc, ops := formed ++ s.ops } := fun w pc e => ⟨w, pc, [], by simpa using e⟩
  unfold uaStep at h
  split at h
  all_goals
    try simp only [uaLane, uaStartBit, uaCell, uaFit, uaData, uaParity, uaStop, uaEmit, uaResume, uaHs, uaHsEvent, uaProgress,
      uaNextLane] at h
    (repeat' split at h) <;> first
      | (injection h with h; subst h; first | exact keep _ _ rfl | exact ⟨_, _, _, rfl⟩)
      | cases h

end Sys2Proof.Machine
end

