-- ==== Sys2Proof/Laws/Operands.lean ====
section
/-!
SUPPORT. When a START's configuration is accepted, in plain arithmetic (46_host_commands.md R385), and what the accepted registers name.
-/

namespace Sys2Proof.Machine

theorem chanByte_toNat (w : Word) : (chanByte w).toNat = w.toNat % 256 := by simp [chanByte]

theorem chanByte_eq_absent (w : Word) : chanByte w = absentByte ↔ w.toNat % 256 = 255 := by
  rw [← BitVec.toNat_inj, chanByte_toNat]
  rfl

/-- Condition 3 fails exactly for a register that names a channel or -1. -/
theorem chanRegLegal_iff (w : Word) : chanRegLegal w = true ↔ namesChannelOrAbsent w := by
  simp only [chanRegLegal, namesChannelOrAbsent, Bool.and_eq_true, Bool.or_eq_true, decide_eq_true_eq, beq_iff_eq,
    chanByte_eq_absent, chanByte_toNat, Config.channels]
  omega

/-- Conditions 3 and 4 fail exactly for a register that names a channel. -/
theorem chanRegRequired_iff (w : Word) : (chanRegLegal w = true ∧ chanByte w ≠ absentByte) ↔ namesChannel w := by
  rw [chanRegLegal_iff, Ne, chanByte_eq_absent, namesChannelOrAbsent, namesChannel]
  omega

/-- Condition 2. -/
theorem windowLegal_iff (winS winE : Word) (count : Nat) : windowLegal winS winE count = true ↔ windowFits winS winE count := by
  simp [windowLegal, windowFits, BitVec.le_def]

/-- Condition 6. -/
theorem frameLegal_iff (frame : Word) :
    frameLegal frame = true ↔ frame.toNat / 4 % 4 ≠ 3 ∧ frame.toNat / 16 % 4 ≠ 3 ∧ frame.toNat < 128 := by
  have hp : (frame.extractLsb' 2 2).toNat = frame.toNat / 4 % 4 := by
    simp [BitVec.extractLsb'_toNat, Nat.shiftRight_eq_div_pow]
  have hs : (frame.extractLsb' 4 2).toNat = frame.toNat / 16 % 4 := by
    simp [BitVec.extractLsb'_toNat, Nat.shiftRight_eq_div_pow]
  have hz : frame.extractLsb' 7 57 = 0#57 ↔ frame.toNat < 128 := by
    rw [← BitVec.toNat_inj]
    simp only [BitVec.extractLsb'_toNat, Nat.shiftRight_eq_div_pow, BitVec.toNat_ofNat]
    have := frame.isLt
    omega
  have h1 : (frameParity frame).isSome = true ↔ frame.toNat / 4 % 4 ≠ 3 := by
    rw [frameParity, hp]
    have := Nat.mod_lt (frame.toNat / 4) (show 0 < 4 by norm_num)
    generalize frame.toNat / 4 % 4 = n at this
    interval_cases n <;> simp
  have h2 : (frameStop frame).isSome = true ↔ frame.toNat / 16 % 4 ≠ 3 := by
    rw [frameStop, hs]
    have := Nat.mod_lt (frame.toNat / 16) (show 0 < 4 by norm_num)
    generalize frame.toNat / 16 % 4 = n at this
    interval_cases n <;> simp
  simp only [frameLegal, Bool.and_eq_true, beq_iff_eq, h1, h2, hz, and_assoc]

/-- `CFG_OK` of the 1-Wire engine (46_host_commands.md R385). -/
theorem owConfigOk_iff (s : State) : owConfigOk s = true ↔ owLegal s := by
  simp only [owConfigOk, owLegal, Bool.and_eq_true, bne_iff_ne, decide_eq_true_eq, windowLegal_iff, ← chanRegRequired_iff, and_assoc]
  rw [show s.owConfig.mode.toNat < 2 ↔ s.owConfig.mode.toNat ≤ 1 by omega]

/-- `CFG_OK` of the JTAG engine (46_host_commands.md R385). -/
theorem jtConfigOk_iff (s : State) : jtConfigOk s = true ↔ jtLegal s := by
  simp only [jtConfigOk, jtLegal, Bool.and_eq_true, bne_iff_ne, windowLegal_iff, ← chanRegRequired_iff, ← chanRegLegal_iff]
  tauto

/-- `CFG_OK` of the UART engine (46_host_commands.md R385). -/
theorem uaConfigOk_iff (s : State) : uaConfigOk s = true ↔ uaLegal s := by
  simp only [uaConfigOk, uaLegal, laneRegs, List.all_cons, List.all_nil, Bool.and_eq_true, bne_iff_ne, windowLegal_iff,
    decide_eq_true_eq, chanRegLegal_iff, frameLegal_iff]
  tauto

/-- The channel a legal register names is below 32. -/
theorem chanOf_legal {w : Word} (h : namesChannelOrAbsent w) : ∀ ch, chanOf w = some ch → chanLegal ch = true := by
  intro ch hc
  unfold chanOf at hc
  split at hc
  · simp at hc
  · rename_i hn
    simp only [Option.some.injEq] at hc
    subst hc
    rw [chanByte_eq_absent] at hn
    simp only [chanLegal, chanByte_toNat, decide_eq_true_eq]
    unfold namesChannelOrAbsent at h
    omega

/-- Every lane of a legal configuration has a legal channel. -/
theorem lanesOf_legal {s : State} (h : uaLegal s) : ∀ l ∈ lanesOf s.uaConfig, chanLegal l.chan = true := by
  intro l hl
  simp only [lanesOf, List.mem_filterMap, Option.map_eq_some_iff] at hl
  obtain ⟨p, hp, ch, hch, rfl⟩ := hl
  obtain ⟨_, _, h1, h2, h3, h4, h5, h6, h7, h8, _⟩ := h
  have hn : namesChannelOrAbsent p.2 := by
    simp only [laneRegs, List.mem_cons, List.not_mem_nil, or_false] at hp
    rcases hp with rfl | rfl | rfl | rfl | rfl | rfl | rfl | rfl <;> assumption
  exact chanOf_legal hn ch hch

/-- The frame's data bits in arithmetic (10_state.md R47). -/
theorem frameBits_eq (frame : Word) : frameBits frame = frame.toNat % 4 + 5 := by
  simp [frameBits, BitVec.extractLsb'_toNat]

/-- TICKS of a length in nanoseconds, in plain arithmetic (41_timing_classifier.md R172). -/
theorem ticks_eq (rate : Word) (ns : Nat) : ticks rate ns = ns * rate.toNat / 1000000000 := by
  simp only [ticks, ticksOf]
  norm_cast

end Sys2Proof.Machine
end

