-- ==== Sys2Proof/Laws/PerInstr.lean ====
section
/-!
SUPPORT. For every operation: its encoding lies in its row of spec/opcode_table.json, the bits under the row's mask being the
row's match value (30_encoding.md R111). One lemma for each constructor of `Instr`.
-/

namespace Sys2Proof.Laws.TableRow

/-- A well-formed operation's encoding lies in the operation's table row. -/
def Statement (i : Instr) : Prop := i.wf = true → (rowOf i).holds (encode i) = true

/-- A record lies in a row when its masked header fields are the row's. -/
theorem holds_header (h m p : Header) (body : List Word) (r : TableRow) (hm : r.mask = m.word) (hp : r.pat = p.word)
    (hk : h.kind &&& m.kind = p.kind) (hc : h.chan &&& m.chan = p.chan) (hs : h.sub &&& m.sub = p.sub)
    (hf : h.flags &&& m.flags = p.flags) (hl : h.len &&& m.len = p.len) : r.holds (.record (h.word :: body)) = true := by
  simp only [TableRow.holds, OpWord.leading, List.headD_cons, hm, hp, Header.word_and, hk, hc, hs, hf, hl, beq_self_eq_true]

/-- A 4-bit code in a byte leaves the byte's high half zero. -/
theorem sub_high (c : BitVec 4) : ((0#4 ++ c : BitVec (4 + 4)) &&& 0xF0#8) = 0#8 := by revert c; decide

/-- The presence flag leaves the other flag bits zero. -/
theorem flag_low (b0 : Bool) : flagByte false false b0 &&& 0xFE#8 = 0#8 := by revert b0; decide

/-- The two error flags leave the direction flag and the bits above it. -/
theorem flags_low (b2 b1 b0 : Bool) : flagByte b2 b1 b0 &&& 0xFC#8 = if b2 then 0x04#8 else 0#8 := by
  revert b2 b1 b0
  decide

/-- The length field of a record with a fixed number of body words, under a full mask. -/
theorem len_fixed (n : Nat) (h : n < 2 ^ 32) : lenField n &&& 0xFFFFFFFF#32 = BitVec.ofNat 32 n := by
  rw [lenField, if_pos h]
  exact BitVec.and_allOnes

theorem startOw : Statement .startOw := fun _ => by decide

theorem startJtag : Statement .startJtag := fun _ => by decide

theorem startUart : Statement .startUart := fun _ => by decide

theorem cancelOw : Statement .cancelOw := fun _ => by decide

theorem cancelJtag : Statement .cancelJtag := fun _ => by decide

theorem cancelUart : Statement .cancelUart := fun _ => by decide

theorem valueAt : Statement .valueAt := fun _ => by decide

theorem findEdge : Statement .findEdge := fun _ => by decide

theorem reset : Statement .reset := fun _ => by decide

theorem clear (chan) : Statement (.clear chan) := fun _ =>
  holds_header _ ⟨0xFF, 0x00, 0xFF, 0xFF, 0xFFFFFFFF⟩ ⟨0x01, 0, 0, 0, 0⟩ _ _ rfl rfl (by simp) (by simp) (by simp) (by simp) (len_fixed _ (by decide))

theorem progress (percent) : Statement (.progress percent) := fun _ =>
  holds_header _ ⟨0xFF, 0xFF, 0x00, 0xFF, 0xFFFFFFFF⟩ ⟨0x02, 0xFF, 0, 0, 0⟩ _ _ rfl rfl (by simp) (by simp [noChannel]) (by simp) (by simp) (len_fixed _ (by decide))

theorem endRun (st code sym err) : Statement (.endRun st code sym err) := fun _ =>
  holds_header _ ⟨0xFF, 0xFF, 0, 0, 0xFFFFFFFF⟩ ⟨0x03, 0xFF, 0, 0, 2⟩ _ _ rfl rfl (by simp) (by simp [noChannel]) (by simp) (by simp) (len_fixed _ (by decide))

theorem owReset (chan present start stop) : Statement (.owReset chan present start stop) := fun _ =>
  holds_header _ ⟨0xFF, 0, 0xFF, 0xFE, 0xFFFFFFFF⟩ ⟨0x10, 0, 0, 0, 2⟩ _ _ rfl rfl (by simp) (by simp) (by simp) (flag_low present) (len_fixed _ (by decide))

theorem owByte (chan value start stop) : Statement (.owByte chan value start stop) := fun _ =>
  holds_header _ ⟨0xFF, 0, 0, 0xFF, 0xFFFFFFFF⟩ ⟨0x11, 0, 0, 0, 2⟩ _ _ rfl rfl (by simp) (by simp) (by simp) (by simp) (len_fixed _ (by decide))

theorem owBusError (chan start stop) : Statement (.owBusError chan start stop) := fun _ =>
  holds_header _ ⟨0xFF, 0, 0xFF, 0xFF, 0xFFFFFFFF⟩ ⟨0x12, 0, 0, 0, 2⟩ _ _ rfl rfl (by simp) (by simp) (by simp) (by simp) (len_fixed _ (by decide))

theorem jtState (chan state start stop) : Statement (.jtState chan state start stop) := fun _ =>
  holds_header _ ⟨0xFF, 0, 0xF0, 0xFF, 0xFFFFFFFF⟩ ⟨0x20, 0, 0, 0x80, 2⟩ _ _ rfl rfl (by simp) (by simp) (sub_high _) (by simp [idxFlag]) (len_fixed _ (by decide))

theorem jtShiftTdi (chan body) : Statement (.jtShiftTdi chan body) := fun _ =>
  holds_header _ ⟨0xFF, 0, 0xFF, 0xFF, 0⟩ ⟨0x21, 0, 0, 0x80, 0⟩ _ _ rfl rfl (by simp) (by simp) (by simp) (by simp [idxFlag]) (by simp)

theorem jtShiftTdo (chan body) : Statement (.jtShiftTdo chan body) := fun _ =>
  holds_header _ ⟨0xFF, 0, 0xFF, 0xFF, 0⟩ ⟨0x21, 0, 1, 0x80, 0⟩ _ _ rfl rfl (by simp) (by simp) (by simp) (by simp [idxFlag]) (by simp)

theorem uaDataRx (chan value pe fe start stop) : Statement (.uaDataRx chan value pe fe start stop) := fun _ =>
  holds_header _ ⟨0xFF, 0, 0, 0xFC, 0xFFFFFFFF⟩ ⟨0x30, 0, 0, 0, 2⟩ _ _ rfl rfl (by simp) (by simp) (by simp) (flags_low false fe pe) (len_fixed _ (by decide))

theorem uaDataTx (chan value pe fe start stop) : Statement (.uaDataTx chan value pe fe start stop) := fun _ =>
  holds_header _ ⟨0xFF, 0, 0, 0xFC, 0xFFFFFFFF⟩ ⟨0x30, 0, 0, 0x04, 2⟩ _ _ rfl rfl (by simp) (by simp) (by simp) (flags_low true fe pe) (len_fixed _ (by decide))

theorem uaEvent (chan label start stop) : Statement (.uaEvent chan label start stop) := fun _ =>
  holds_header _ ⟨0xFF, 0, 0xF0, 0xFF, 0xFFFFFFFF⟩ ⟨0x31, 0, 0, 0, 2⟩ _ _ rfl rfl (by simp) (by simp) (sub_high _) (by simp) (len_fixed _ (by decide))

theorem clsUnknown : Statement .clsUnknown := fun _ => by decide

theorem clsOne : Statement .clsOne := fun _ => by decide

theorem clsZero : Statement .clsZero := fun _ => by decide

theorem clsReset : Statement .clsReset := fun _ => by decide

theorem tapTestLogicReset0 : Statement .tapTestLogicReset0 := fun _ => by decide

theorem tapTestLogicReset1 : Statement .tapTestLogicReset1 := fun _ => by decide

theorem tapRunTestIdle0 : Statement .tapRunTestIdle0 := fun _ => by decide

theorem tapRunTestIdle1 : Statement .tapRunTestIdle1 := fun _ => by decide

theorem tapSelectDr0 : Statement .tapSelectDr0 := fun _ => by decide

theorem tapSelectDr1 : Statement .tapSelectDr1 := fun _ => by decide

theorem tapCaptureDr0 : Statement .tapCaptureDr0 := fun _ => by decide

theorem tapCaptureDr1 : Statement .tapCaptureDr1 := fun _ => by decide

theorem tapShiftDr0 : Statement .tapShiftDr0 := fun _ => by decide

theorem tapShiftDr1 : Statement .tapShiftDr1 := fun _ => by decide

theorem tapExit1Dr0 : Statement .tapExit1Dr0 := fun _ => by decide

theorem tapExit1Dr1 : Statement .tapExit1Dr1 := fun _ => by decide

theorem tapPauseDr0 : Statement .tapPauseDr0 := fun _ => by decide

theorem tapPauseDr1 : Statement .tapPauseDr1 := fun _ => by decide

theorem tapExit2Dr0 : Statement .tapExit2Dr0 := fun _ => by decide

theorem tapExit2Dr1 : Statement .tapExit2Dr1 := fun _ => by decide

theorem tapUpdateDr0 : Statement .tapUpdateDr0 := fun _ => by decide

theorem tapUpdateDr1 : Statement .tapUpdateDr1 := fun _ => by decide

theorem tapSelectIr0 : Statement .tapSelectIr0 := fun _ => by decide

theorem tapSelectIr1 : Statement .tapSelectIr1 := fun _ => by decide

theorem tapCaptureIr0 : Statement .tapCaptureIr0 := fun _ => by decide

theorem tapCaptureIr1 : Statement .tapCaptureIr1 := fun _ => by decide

theorem tapShiftIr0 : Statement .tapShiftIr0 := fun _ => by decide

theorem tapShiftIr1 : Statement .tapShiftIr1 := fun _ => by decide

theorem tapExit1Ir0 : Statement .tapExit1Ir0 := fun _ => by decide

theorem tapExit1Ir1 : Statement .tapExit1Ir1 := fun _ => by decide

theorem tapPauseIr0 : Statement .tapPauseIr0 := fun _ => by decide

theorem tapPauseIr1 : Statement .tapPauseIr1 := fun _ => by decide

theorem tapExit2Ir0 : Statement .tapExit2Ir0 := fun _ => by decide

theorem tapExit2Ir1 : Statement .tapExit2Ir1 := fun _ => by decide

theorem tapUpdateIr0 : Statement .tapUpdateIr0 := fun _ => by decide

theorem tapUpdateIr1 : Statement .tapUpdateIr1 := fun _ => by decide

end Sys2Proof.Laws.TableRow
end

