-- ==== Sys2Proof/Laws/Scanner.lean ====
section
/-!
SUPPORT. What each scanner primitive can answer (40_edge_scanner.md), said once, and the form of a capture (10_state.md R22).
-/

namespace Sys2Proof.Machine

/-! ## The form of a capture -/

theorem risingFrom_iff (t : Int) (m : Memory) :
    risingFrom t m = true ↔ (∀ x ∈ m, t < x.time) ∧ m.Pairwise (fun a b => a.time < b.time) := by
  induction m generalizing t with
  | nil => simp [risingFrom]
  | cons x xs ih =>
    simp only [risingFrom, Bool.and_eq_true, decide_eq_true_eq, ih, List.forall_mem_cons, List.pairwise_cons]
    constructor
    · rintro ⟨h, h1, h2⟩
      exact ⟨⟨h, fun y hy => h.trans (h1 y hy)⟩, h1, h2⟩
    · rintro ⟨⟨h, _⟩, h1, h2⟩
      exact ⟨h, h1, h2⟩

/-- A capture is well formed when its timestamps strictly increase (10_state.md R22). -/
theorem Memory.wf_iff (m : Memory) : m.wf = true ↔ m.Pairwise (fun a b => a.time < b.time) := by
  cases m with
  | nil => simp [Memory.wf]
  | cons x xs => simp [Memory.wf, risingFrom_iff]

/-- In a well-formed capture a later entry has a later time. -/
theorem Memory.wf_lt {m : Memory} (h : m.wf = true) {i j : Nat} {x y : Sample} (hij : i < j)
    (hx : m[i]? = some x) (hy : m[j]? = some y) : x.time < y.time := by
  obtain ⟨hi, rfl⟩ := List.getElem?_eq_some_iff.1 hx
  obtain ⟨hj, rfl⟩ := List.getElem?_eq_some_iff.1 hy
  exact List.pairwise_iff_getElem.1 ((Memory.wf_iff m).1 h) i j hi hj hij

/-- In a well-formed capture an entry at a later time is a later entry. -/
theorem Memory.wf_idx_lt {m : Memory} (h : m.wf = true) {i j : Nat} {x y : Sample}
    (hx : m[i]? = some x) (hy : m[j]? = some y) (ht : x.time < y.time) : i < j := by
  rcases Nat.lt_trichotomy i j with h' | h' | h'
  · exact h'
  · subst h'
    rw [hx, Option.some.injEq] at hy
    exact absurd (hy ▸ ht) (lt_irrefl _)
  · exact absurd ht (not_lt.2 (Memory.wf_lt h h' hy hx).le)

/-- The capture of the state after reset has the form (log 2). -/
theorem reset_samples_wf : State.reset.samples.wf = true := rfl

/-! ## VALUE_AT -/

theorem lastAtOrBefore_some (t : Int) (i : Nat) (m : Memory) (best : Option Hit) (h : Hit) :
    lastAtOrBefore t i m best = some h ↔
      (∃ k x, heldEntry m t k x ∧ h = ⟨i + k, x.ts, x.val⟩) ∨
        ((∀ (j : Nat) (y : Sample), m[j]? = some y → t < y.time) ∧ best = some h) := by
  induction m generalizing i best with
  | nil => simp [lastAtOrBefore, heldEntry]
  | cons a as ih =>
    rw [lastAtOrBefore, ih]
    constructor
    · rintro (⟨k, x, ⟨hk, hx, hl⟩, rfl⟩ | ⟨hl, hb⟩)
      · refine .inl ⟨k + 1, x, ⟨by simpa using hk, hx, fun j y hj hy => ?_⟩, by simp; omega⟩
        cases j with
        | zero => omega
        | succ j => exact hl j y (by omega) (by simpa using hy)
      · split_ifs at hb with ha
        · refine .inl ⟨0, a, ⟨rfl, ha, fun j y hj hy => ?_⟩, by simpa using hb.symm⟩
          cases j with
          | zero => omega
          | succ j => exact hl j y (by simpa using hy)
        · refine .inr ⟨fun j y hy => ?_, hb⟩
          cases j with
          | zero => simp at hy; subst hy; omega
          | succ j => exact hl j y (by simpa using hy)
    · rintro (⟨k, x, ⟨hk, hx, hl⟩, rfl⟩ | ⟨hl, hb⟩)
      · cases k with
        | zero =>
          simp at hk
          subst hk
          exact .inr ⟨fun j y hy => hl (j + 1) y (by omega) (by simpa using hy), by simp [hx]⟩
        | succ k =>
          exact .inl ⟨k, x, ⟨by simpa using hk, hx, fun j y hj hy => hl (j + 1) y (by omega) (by simpa using hy)⟩,
            by simp; omega⟩
      · refine .inr ⟨fun j y hy => hl (j + 1) y (by simpa using hy), ?_⟩
        have := hl 0 a rfl
        rw [if_neg (by omega), hb]

/-- VALUE_AT answers `NoSample` exactly when the memory is empty or the time is before the first entry (40_edge_scanner.md R150). -/
theorem valueAt_eq_none (m : Memory) (t : Int) : valueAt m t = none ↔ ∀ x, m[0]? = some x → t < x.time := by
  cases m with
  | nil => simp [valueAt]
  | cons a as =>
    simp only [valueAt, List.getElem?_cons_zero, Option.some.injEq, forall_eq']
    split_ifs with h
    · simp [h]
    · simp only [h, iff_false]
      intro hn
      cases hr : lastAtOrBefore t 0 (a :: as) none with
      | some r => simp [hr] at hn
      | none =>
        by_cases hh : ∃ r, lastAtOrBefore t 0 (a :: as) none = some r
        · obtain ⟨r, hr'⟩ := hh
          simp [hr] at hr'
        · have : lastAtOrBefore t 1 as (some ⟨0, a.ts, a.val⟩) = none := by
            rw [lastAtOrBefore, if_pos (by omega)] at hr
            exact hr
          exact absurd this (lastAtOrBefore_ne_none t 1 as _)
where
  lastAtOrBefore_ne_none (t : Int) (i : Nat) (m : Memory) (b : Hit) : lastAtOrBefore t i m (some b) ≠ none := by
    induction m generalizing i b with
    | nil => simp [lastAtOrBefore]
    | cons x xs ih =>
      rw [lastAtOrBefore]
      split_ifs
      · exact ih _ _
      · exact ih _ _

/-- VALUE_AT answers the greatest entry at or before the time (40_edge_scanner.md R150). -/
theorem valueAt_eq_some (m : Memory) (t : Int) (h : Hit) :
    valueAt m t = some h ↔
      (∃ x, m[0]? = some x ∧ x.time ≤ t) ∧ heldEntry m t h.idx ⟨h.ts, h.val⟩ := by
  cases m with
  | nil => simp [valueAt]
  | cons a as =>
    simp only [valueAt, List.getElem?_cons_zero, Option.some.injEq, exists_eq_left']
    split_ifs with ha
    · simp; omega
    · rw [lastAtOrBefore_some]
      constructor
      · rintro (⟨k, x, hx, rfl⟩ | ⟨_, hb⟩)
        · exact ⟨by omega, by simpa using hx⟩
        · simp at hb
      · rintro ⟨_, hh⟩
        exact .inl ⟨h.idx, ⟨h.ts, h.val⟩, hh, by simp⟩

/-- LEVEL is defined from the first entry on (40_edge_scanner.md R151). -/
theorem level_isSome {m : Memory} {t : Int} (chan : Byte) (h : notBefore m t = true) : (level m t chan).isSome = true := by
  cases m with
  | nil => simp [notBefore] at h
  | cons a as =>
    simp only [notBefore, decide_eq_true_eq] at h
    have hn : valueAt (a :: as) t ≠ none := by
      rw [Ne, valueAt_eq_none]
      simp only [List.getElem?_cons_zero, Option.some.injEq, forall_eq']
      omega
    cases hv : valueAt (a :: as) t with
    | none => exact absurd hv hn
    | some r => simp [level, hv]

/-! ## FIND_EDGE -/

theorem edge_iff (p x : Sample) (mask : ChannelBits) (dir : EdgeDir) :
    edge p.val x.val mask dir = true ↔
      match dir with
      | .rising => p.val &&& mask = 0#32 ∧ x.val &&& mask ≠ 0#32
      | .falling => p.val &&& mask ≠ 0#32 ∧ x.val &&& mask = 0#32 := by
  cases dir <;> simp [edge, active]

theorem findEdgeFrom_some (t0 t1 : Int) (mask : ChannelBits) (dir : EdgeDir) (i : Nat) (p : Sample) (m : Memory) (h : Hit) :
    findEdgeFrom t0 t1 mask dir i p.val m = some h ↔
      ∃ k x, edgeWithin (p :: m) t0 t1 mask dir (k + 1) x ∧ h = ⟨i + k, x.ts, x.val⟩ ∧
        ∀ j < k, ∀ y, ¬edgeWithin (p :: m) t0 t1 mask dir (j + 1) y := by
  induction m generalizing i p with
  | nil => simp [findEdgeFrom, edgeWithin, edgeAt]
  | cons a as ih =>
    have hcond : (t0 < a.time ∧ a.time < t1 ∧ edge p.val a.val mask dir = true) ↔
        ∃ x, edgeWithin (p :: a :: as) t0 t1 mask dir 1 x := by
      simp only [edgeWithin, edgeAt, edge_iff]
      constructor
      · rintro ⟨h1, h2, h3⟩
        exact ⟨a, ⟨p, le_rfl, rfl, rfl, h3⟩, h1, h2⟩
      · rintro ⟨x, ⟨q, _, hq, hx, h3⟩, h1, h2⟩
        simp at hq hx
        subst hq hx
        exact ⟨h1, h2, h3⟩
    have hshift : ∀ j y, edgeWithin (p :: a :: as) t0 t1 mask dir (j + 2) y ↔
        edgeWithin (a :: as) t0 t1 mask dir (j + 1) y := by
      intro j y
      simp [edgeWithin, edgeAt]
    rw [findEdgeFrom]
    split_ifs with hc
    · obtain ⟨x, hx⟩ := hcond.1 hc
      have hxa : x = a := by
        obtain ⟨⟨q, _, _, h2, _⟩, _, _⟩ := hx
        simpa using h2.symm
      subst hxa
      constructor
      · intro he
        exact ⟨0, x, hx, by simpa using he.symm, fun j hj => absurd hj (by omega)⟩
      · rintro ⟨k, y, hy, rfl, hl⟩
        cases k with
        | zero =>
          obtain ⟨⟨q, _, _, h2, _⟩, _, _⟩ := hy
          simp at h2
          simp [h2]
        | succ k => exact absurd hx (hl 0 (by omega) x)
    · rw [ih]
      constructor
      · rintro ⟨k, x, hx, rfl, hl⟩
        refine ⟨k + 1, x, (hshift k x).2 hx, by simp; omega, fun j hj y hy => ?_⟩
        cases j with
        | zero => exact hc (hcond.2 ⟨y, hy⟩)
        | succ j => exact hl j (by omega) y ((hshift j y).1 hy)
      · rintro ⟨k, x, hx, rfl, hl⟩
        cases k with
        | zero => exact absurd (hcond.2 ⟨x, hx⟩) hc
        | succ k =>
          exact ⟨k, x, (hshift k x).1 hx, by simp; omega, fun j hj y hy => hl (j + 1) (by omega) y ((hshift j y).2 hy)⟩

/-- FIND_EDGE answers the least entry that is an edge strictly inside the range (40_edge_scanner.md R152). -/
theorem findEdge_eq_some (m : Memory) (t0 t1 : Int) (mask : ChannelBits) (dir : EdgeDir) (h : Hit) :
    findEdge m t0 t1 mask dir = some h ↔
      edgeWithin m t0 t1 mask dir h.idx ⟨h.ts, h.val⟩ ∧
        ∀ j < h.idx, ∀ y, ¬edgeWithin m t0 t1 mask dir j y := by
  cases m with
  | nil => simp [findEdge, edgeWithin, edgeAt]
  | cons p as =>
    rw [findEdge, findEdgeFrom_some]
    constructor
    · rintro ⟨k, x, hx, rfl, hl⟩
      refine ⟨by simpa [Nat.add_comm] using hx, fun j hj y hy => ?_⟩
      cases j with
      | zero => obtain ⟨⟨q, h1, _⟩, _⟩ := hy; omega
      | succ j => exact hl j (by simp at hj; omega) y hy
    · rintro ⟨hx, hl⟩
      have h1 : 1 ≤ h.idx := by obtain ⟨⟨q, h1, _⟩, _⟩ := hx; exact h1
      obtain ⟨k, hk⟩ : ∃ k, h.idx = k + 1 := ⟨h.idx - 1, by omega⟩
      refine ⟨k, ⟨h.ts, h.val⟩, hk ▸ hx, ?_, fun j hj => hl (j + 1) (by omega)⟩
      cases h
      simp at hk
      simp [hk, Nat.add_comm]

/-- FIND_EDGE answers `NotFound` exactly when no entry is an edge strictly inside the range (40_edge_scanner.md R152). -/
theorem findEdge_eq_none (m : Memory) (t0 t1 : Int) (mask : ChannelBits) (dir : EdgeDir) :
    findEdge m t0 t1 mask dir = none ↔ ∀ i x, ¬edgeWithin m t0 t1 mask dir i x := by
  constructor
  · intro hn i
    induction i using Nat.strong_induction_on with
    | _ i ih =>
      intro x hx
      have := (findEdge_eq_some m t0 t1 mask dir ⟨i, x.ts, x.val⟩).2 ⟨hx, fun j hj y => ih j hj y⟩
      rw [hn] at this
      exact absurd this (by simp)
  · intro hall
    cases h : findEdge m t0 t1 mask dir with
    | none => rfl
    | some r => exact absurd ((findEdge_eq_some m t0 t1 mask dir r).1 h).1 (hall _ _)

/-- Where FIND_EDGE finds an edge: an entry of the memory, strictly inside the range. -/
theorem findEdge_bounds {m : Memory} {t0 t1 : Int} {mask : ChannelBits} {dir : EdgeDir} {h : Hit}
    (he : findEdge m t0 t1 mask dir = some h) :
    m[h.idx]? = some ⟨h.ts, h.val⟩ ∧ t0 < h.time ∧ h.time < t1 := by
  obtain ⟨⟨⟨p, _, _, hx, _⟩, h0, h1⟩, _⟩ := (findEdge_eq_some m t0 t1 mask dir h).1 he
  exact ⟨hx, h0, h1⟩

/-! ## FIRST_ACTIVE and WINDOW -/

theorem firstActiveFrom_some (mask : ChannelBits) (i : Nat) (m : Memory) (h : Hit) :
    firstActiveFrom mask i m = some h ↔
      ∃ k x, m[k]? = some x ∧ active x.val mask = true ∧ h = ⟨i + k, x.ts, x.val⟩ ∧
        ∀ j < k, ∀ y, m[j]? = some y → active y.val mask = false := by
  induction m generalizing i with
  | nil => simp [firstActiveFrom]
  | cons a as ih =>
    rw [firstActiveFrom]
    split_ifs with ha
    · constructor
      · intro he
        exact ⟨0, a, rfl, ha, by simpa using he.symm, fun j hj => absurd hj (by omega)⟩
      · rintro ⟨k, x, hx, _, rfl, hl⟩
        cases k with
        | zero => simp at hx; simp [hx]
        | succ k => exact absurd (hl 0 (by omega) a rfl) (by simp [ha])
    · rw [ih]
      constructor
      · rintro ⟨k, x, hx, hm, rfl, hl⟩
        refine ⟨k + 1, x, by simpa using hx, hm, by simp; omega, fun j hj y hy => ?_⟩
        cases j with
        | zero => simp at hy; subst hy; simpa using ha
        | succ j => exact hl j (by omega) y (by simpa using hy)
      · rintro ⟨k, x, hx, hm, rfl, hl⟩
        cases k with
        | zero => simp at hx; subst hx; exact absurd hm ha
        | succ k =>
          exact ⟨k, x, by simpa using hx, hm, by simp; omega, fun j hj y hy => hl (j + 1) (by omega) y (by simpa using hy)⟩

/-- FIRST_ACTIVE answers the least entry of `S ≤ i < E` with a masked channel high (40_edge_scanner.md R155). -/
theorem firstActive_eq_some (m : Memory) (s e : Nat) (mask : ChannelBits) (h : Hit) :
    firstActive m s e mask = some h ↔
      s ≤ h.idx ∧ h.idx < e ∧ m[h.idx]? = some ⟨h.ts, h.val⟩ ∧ active h.val mask = true ∧
        ∀ j, s ≤ j → j < h.idx → ∀ y, m[j]? = some y → active y.val mask = false := by
  have hget : ∀ k, ((m.take e).drop s)[k]? = if s + k < e then m[s + k]? else none := by
    intro k
    rw [List.getElem?_drop, List.getElem?_take]
  rw [firstActive, firstActiveFrom_some]
  constructor
  · rintro ⟨k, x, hx, hm, rfl, hl⟩
    rw [hget] at hx
    split_ifs at hx with hk
    · refine ⟨by simp, hk, hx, hm, fun j hj hj' y hy => ?_⟩
      simp only at hj'
      exact hl (j - s) (by omega) y (by rw [hget, show s + (j - s) = j by omega, if_pos (by omega)]; exact hy)
  · rintro ⟨h1, h2, h3, h4, h5⟩
    refine ⟨h.idx - s, ⟨h.ts, h.val⟩, ?_, h4, ?_, fun j hj y hy => ?_⟩
    · rw [hget, show s + (h.idx - s) = h.idx by omega, if_pos h2]
      exact h3
    · cases h
      simp at h1
      simp [show s + (_ - s) = _ from Nat.add_sub_of_le h1]
    · rw [hget] at hy
      split_ifs at hy with hk
      exact h5 (s + j) (by omega) (by omega) y hy

/-- WINDOW of a non-empty window inside the memory (40_edge_scanner.md R156). -/
theorem window_eq_some {m : Memory} {s e : Nat} (hs : s < e) (he : e ≤ m.length) :
    ∃ x y, m[s]? = some x ∧ (if e < m.length then m[e]? else m[m.length - 1]?) = some y ∧
      window m s e = some (x.time, if e < m.length then y.time else y.time + 1) := by
  have h1 : s < m.length := by omega
  by_cases h : e < m.length
  · exact ⟨m[s], m[e], by simp [h1], by simp [h], by simp [window, h1, h]⟩
  · have h2 : m[m.length - 1]? = some m[m.length - 1] := List.getElem?_eq_getElem (by omega)
    exact ⟨m[s], m[m.length - 1], by simp [h1], by simp [h, h2], by simp [window, h1, h, h2]⟩

end Sys2Proof.Machine
end

