-- ==== Sys2Proof/Tests/Slice0.lean ====
section
/-!
SUPPORT. Tests. Expected results are the spec's own: the tables of 30_encoding.md, the examples of the rules, and the vectors and programs of
95_test_vectors.md and 96_test_vectors_engines.md, or hand calculation from the rule cited. The witness theorems show that the hypotheses of
the statements in Certificates/Slice0/Obligations.lean can be met together.
-/

namespace Sys2Proof.Tests

open Sys2Proof.Machine

/-! ## Well-formedness: one ill-formed term for each check -/

theorem test_wf_channel : (Instr.clear 32#8).wf = false ∧ (Instr.clear 31#8).wf = true := by decide

theorem test_wf_percent : (Instr.progress 101#8).wf = false ∧ (Instr.progress 100#8).wf = true := by decide

theorem test_wf_final_state : (Instr.endRun 1#8 0#8 0#64 0#64).wf = false ∧ (Instr.endRun 5#8 0#8 0#64 0#64).wf = false := by decide

theorem test_wf_end_code : (Instr.endRun 3#8 2#8 0#64 0#64).wf = false ∧ (Instr.endRun 3#8 1#8 0#64 0#64).wf = true := by decide

theorem test_wf_point : (Instr.owBusError 0#8 5#64 6#64).wf = false ∧ (Instr.uaEvent 0#8 0#4 5#64 6#64).wf = false := by decide

theorem test_wf_label : (Instr.uaEvent 0#8 12#4 5#64 5#64).wf = false ∧ (Instr.uaEvent 0#8 11#4 5#64 5#64).wf = true := by decide

theorem test_wf_index : (Instr.jtState 1#8 .shiftDr 0xFFFFFFFFFFFFFFFF#64 0#64).wf = false ∧ (Instr.jtState 1#8 .shiftDr 0#64 0#64).wf = true := by decide

theorem test_wf_shift_body :
    (Instr.jtShiftTdi 2#8 []).wf = false ∧ (Instr.jtShiftTdi 2#8 [0#64, 1#64, 0#64]).wf = false
    ∧ (Instr.jtShiftTdi 2#8 [0#64, 1#64, 65#64, 7#64]).wf = false ∧ (Instr.jtShiftTdi 2#8 [0#64, 1#64, 3#64, 8#64]).wf = false
    ∧ (Instr.jtShiftTdi 2#8 [0#64, 1#64, 3#64, 7#64]).wf = true := by decide

/-! ## Decoding: a word of every row, written from the tables of 30_encoding.md -/

/-- The nine legal command words (R113). -/
theorem test_decode_commands :
    [0x00000001#64, 0x00000101#64, 0x00000201#64, 0x00000002#64, 0x00000102#64, 0x00000202#64, 0x00000003#64, 0x00000004#64,
      0x00000005#64].map (fun v => decode (.cmd v))
    = [.ok .startOw, .ok .startJtag, .ok .startUart, .ok .cancelOw, .ok .cancelJtag, .ok .cancelUart, .ok .valueAt, .ok .findEdge,
      .ok .reset] := rfl

/-- Illegal command words, each for its reason (R125). -/
theorem test_decode_illegal_commands :
    [0x00000000#64, 0x00000006#64, 0x00000301#64, 0x00000103#64, 0x00000401#64, 0x100000001#64].map (fun v => decode (.cmd v))
    = [.error .operation, .error .operation, .error .engine, .error .engine, .error .reservedBits, .error .reservedBits] := rfl

/-- The stream-only records (R116; programs P1 and OW-9). -/
theorem test_decode_stream_records :
    decode (.record [0x0000000000000201#64]) = .ok (.clear 2#8)
    ∧ decode (.record [0x000000000034FF02#64]) = .ok (.progress 52#8)
    ∧ decode (.record [0x000000020103FF03#64, 0x0#64, 0x0#64]) = .ok (.endRun 3#8 1#8 0#64 0#64) := ⟨rfl, rfl, rfl⟩

/-- The 1-Wire symbols (R116; programs P1 and OW-8). -/
theorem test_decode_onewire_records :
    decode (.record [0x0000000201000010#64, 0x64#64, 0x244#64]) = .ok (.owReset 0#8 true 0x64#64 0x244#64)
    ∧ decode (.record [0x0000000200CC0011#64, 0x44C#64, 0x677#64]) = .ok (.owByte 0#8 0xCC#8 0x44C#64 0x677#64)
    ∧ decode (.record [0x0000000200000012#64, 0x32#64, 0x32#64]) = .ok (.owBusError 0#8 0x32#64 0x32#64) := ⟨rfl, rfl, rfl⟩

/-- The JTAG symbols (R116, R117): TMS on channel 1, TDI on 2, TDO on 3; the string 001 is bit word 1 with three bits. -/
theorem test_decode_jtag_records :
    decode (.record [0x0000000280000120#64, 0x0#64, 0x2#64]) = .ok (.jtState 1#8 .testLogicReset 0#64 2#64)
    ∧ decode (.record [0x00000002800B0120#64, 0x0#64, 0x2#64]) = .ok (.jtState 1#8 .shiftIr 0#64 2#64)
    ∧ decode (.record [0x0000000480000221#64, 0xA#64, 0xE#64, 0x3#64, 0x5#64]) = .ok (.jtShiftTdi 2#8 [0xA#64, 0xE#64, 3#64, 5#64])
    ∧ decode (.record [0x0000000480010321#64, 0xA#64, 0xE#64, 0x3#64, 0x1#64]) = .ok (.jtShiftTdo 3#8 [0xA#64, 0xE#64, 3#64, 1#64]) :=
  ⟨rfl, rfl, rfl, rfl⟩

/-- The UART symbols (R116, R124): PE is bit 0, FE bit 1, DIR bit 2 of FLAGS; label 5 is DTR going high. -/
theorem test_decode_uart_records :
    decode (.record [0x0000000201410030#64, 0x64#64, 0xC3#64]) = .ok (.uaDataRx 0#8 0x41#8 true false 0x64#64 0xC3#64)
    ∧ decode (.record [0x0000000206410130#64, 0x64#64, 0xC3#64]) = .ok (.uaDataTx 1#8 0x41#8 false true 0x64#64 0xC3#64)
    ∧ decode (.record [0x0000000200050231#64, 0x32#64, 0x32#64]) = .ok (.uaEvent 2#8 5#4 0x32#64 0x32#64) := ⟨rfl, rfl, rfl⟩

/-- A kind that is never emitted, a wrong length, a flag bit that must be zero, and no header at all (R115, R116). -/
theorem test_decode_illegal_records :
    [[0x0000000200000013#64, 0#64, 0#64], [0x0000000200000010#64], [0x0000000202000010#64, 0#64, 0#64], []].map (fun r => decode (.record r))
    = [.error .kind, .error .length, .error .fixedField, .error .noHeader] := rfl

/-- The 32 rows of the transition table in row order: code of the state in bits 4:1, TMS in bit 0 (R120, R121). -/
theorem test_decode_tap_rows :
    [0b00000#5, 0b00001#5, 0b00010#5, 0b00011#5, 0b00100#5, 0b00101#5, 0b00110#5, 0b00111#5,
      0b01000#5, 0b01001#5, 0b01010#5, 0b01011#5, 0b01100#5, 0b01101#5, 0b01110#5, 0b01111#5,
      0b10000#5, 0b10001#5, 0b10010#5, 0b10011#5, 0b10100#5, 0b10101#5, 0b10110#5, 0b10111#5,
      0b11000#5, 0b11001#5, 0b11010#5, 0b11011#5, 0b11100#5, 0b11101#5, 0b11110#5, 0b11111#5].map (fun row => decode (.tap row))
    = [.ok .tapTestLogicReset0, .ok .tapTestLogicReset1, .ok .tapRunTestIdle0, .ok .tapRunTestIdle1,
      .ok .tapSelectDr0, .ok .tapSelectDr1, .ok .tapCaptureDr0, .ok .tapCaptureDr1,
      .ok .tapShiftDr0, .ok .tapShiftDr1, .ok .tapExit1Dr0, .ok .tapExit1Dr1,
      .ok .tapPauseDr0, .ok .tapPauseDr1, .ok .tapExit2Dr0, .ok .tapExit2Dr1,
      .ok .tapUpdateDr0, .ok .tapUpdateDr1, .ok .tapSelectIr0, .ok .tapSelectIr1,
      .ok .tapCaptureIr0, .ok .tapCaptureIr1, .ok .tapShiftIr0, .ok .tapShiftIr1,
      .ok .tapExit1Ir0, .ok .tapExit1Ir1, .ok .tapPauseIr0, .ok .tapPauseIr1,
      .ok .tapExit2Ir0, .ok .tapExit2Ir1, .ok .tapUpdateIr0, .ok .tapUpdateIr1] := rfl

/-- The four class codes (R122). -/
theorem test_decode_classes :
    [0b00#2, 0b01#2, 0b10#2, 0b11#2].map (fun c => decode (.cls c)) = [.ok .clsUnknown, .ok .clsOne, .ok .clsZero, .ok .clsReset] := rfl

/-- The byte of bits 7:0 comes first (20_memory.md R84): `PROGRESS 52`. -/
theorem test_record_bytes :
    recordBytes [0x000000000034FF02#64] = [0x02#8, 0xFF#8, 0x34#8, 0x00#8, 0x00#8, 0x00#8, 0x00#8, 0x00#8]
    ∧ decodeBytes ([0x02#8, 0xFF#8, 0x34#8, 0x00#8, 0x00#8, 0x00#8, 0x00#8, 0x00#8] ++ [0xAA#8]) = .ok (.progress 52#8, [0xAA#8]) :=
  ⟨rfl, rfl⟩

/-- The same order in a sample-memory image (20_memory.md R84): timestamp 580 = 0x244 with value 0b01, then 600 = 0x258 with 0x03000000. -/
theorem test_memory_bytes :
    memoryBytes [⟨580#64, 0b01#32⟩, ⟨600#64, 0x03000000#32⟩]
      = [0x44#8, 0x02#8, 0#8, 0#8, 0#8, 0#8, 0#8, 0#8, 0x01#8, 0#8, 0#8, 0#8,
        0x58#8, 0x02#8, 0#8, 0#8, 0#8, 0#8, 0#8, 0#8, 0#8, 0#8, 0#8, 0x03#8] := rfl

/-- The host's numbering: a command of 32 bits, a TAP row, a header of 64 bits with body words of zeros, the low half of a header. -/
theorem test_table_words :
    decodeTableWord 32 0x101 = some .startJtag ∧ decodeTableWord 8 0x13 = some .tapSelectIr1
    ∧ decodeTableWord 64 0x0000000201000010 = some (.owReset 0#8 true 0#64 0#64)
    ∧ decodeTableWord 32 0x80010321 = some (.jtShiftTdo 3#8 []) ∧ decodeTableWord 2 2 = some .clsZero
    ∧ decodeTableWord 32 0x301 = none := ⟨rfl, rfl, rfl, rfl, rfl, rfl⟩

/-- The very next step after `withFetchWord` runs the word: START.JTAG on the reset block is refused, JT_STATUS = 0x023 (HC-6). -/
theorem test_fetch_word :
    (match step (State.reset.withFetchWord 32 0x101) with | .next s => some (readReg s 0x28, s.ops) | _ => none) = some (0x23#64, []) := rfl

/-! ## States for tests and witnesses -/

/-- Buffer `B` of 95_test_vectors.md section 1. -/
def bufB : Memory := [⟨0#64, 0b01#32⟩, ⟨100#64, 0b00#32⟩, ⟨580#64, 0b01#32⟩, ⟨600#64, 0b11#32⟩, ⟨700#64, 0b10#32⟩, ⟨800#64, 0b00#32⟩]

/-- The first entries of program P1: a reset pulse, its presence pulse, the first slot. -/
def bus : Memory := [⟨0#64, 1#32⟩, ⟨100#64, 0#32⟩, ⟨580#64, 1#32⟩, ⟨610#64, 0#32⟩, ⟨720#64, 1#32⟩, ⟨1100#64, 0#32⟩, ⟨1160#64, 1#32⟩, ⟨2000#64, 1#32⟩]

/-- The test profile `T-STD` of 95_test_vectors.md section 2.1, as a latched profile; the bounds no rule reads are 0. -/
def tStd : Profile :=
  ⟨⟨5000, 15000⟩, ⟨59000, 0⟩, ⟨60000, 120000⟩, ⟨6000, 0⟩, ⟨0, 9000⟩, ⟨0, 0⟩, ⟨480000, 640000⟩, ⟨63000, 78000⟩, ⟨410000, 0⟩⟩

/-- The block after reset with a capture at 1 MHz. -/
def loaded (m : Memory) : State := { State.reset with samples := m, sbRate := 1000000#64 }

/-- The status register of a running engine. -/
def runStatus : Status := ⟨.running, .none, false⟩

/-- The latched 1-Wire registers of program P1 over `bus`. -/
def owP1 : OwWork :=
  { OwWork.named with winE := 8, mask := 1#32, profile := tStd, bitTicks := 65, resetTicks := 952, tEnd := 2001 }

/-- A RUNNING 1-Wire engine at a step. -/
def owAt (pc : OwPc) (w : OwWork) : State :=
  { loaded bus with owOut := { EngineOut.reset with status := runStatus }, owPc := pc, owWork := w }

/-- A clock line on channel 0 and TMS on channel 1: TCK rises at entries 1 and 3, TMS is high in the second of them. -/
def tap4 : Memory := [⟨0#64, 0b00#32⟩, ⟨5#64, 0b01#32⟩, ⟨10#64, 0b10#32⟩, ⟨15#64, 0b11#32⟩]

/-- The latched JTAG registers over `tap4`, TDI on channel 0 and TDO on channel 1. -/
def jtW : JtWork :=
  { JtWork.named with winE := 4, tms := 1#8, tdi := some 0#8, tdo := some 1#8, tEnd := 16 }

/-- A RUNNING JTAG engine at a step. -/
def jtAt (pc : JtPc) (w : JtWork) : State :=
  { loaded tap4 with jtOut := { EngineOut.reset with status := runStatus }, jtPc := pc, jtWork := w }

/-- A frame of five data bits at a cell of 10: start at 10, bits 1 0 0 0 1, stop; channel 0. -/
def uart5 : Memory := [⟨0#64, 1#32⟩, ⟨10#64, 0#32⟩, ⟨20#64, 1#32⟩, ⟨30#64, 0#32⟩, ⟨60#64, 1#32⟩, ⟨200#64, 1#32⟩]

/-- The latched UART registers over `uart5`: one RX lane, five bits, no parity, one stop bit, 100000 baud. -/
def uaW : UaWork :=
  { UaWork.named with winE := 6, baud := 100000#64, lanes := [⟨.rx, 0#8⟩], tEnd := 201, t0 := 10, cell := ⟨10, 1⟩, tLast := 75 }

/-- A RUNNING UART engine at a step. -/
def uaAt (pc : UaPc) (w : UaWork) : State :=
  { loaded uart5 with uaOut := { EngineOut.reset with status := runStatus }, uaPc := pc, uaWork := w }

/-- What a function gives of the next state, if there is one. -/
def after {α : Type} (r : Result) (f : State → α) : Option α :=
  match r with
  | .next s => some (f s)
  | _ => none

/-! ## One step of each instruction -/

/-- P1's configuration with its window on `bus`. -/
def owReady1 : State := { loaded bus with owConfig := ⟨0#64, 8#64, 0#64, 0#64⟩ }

/-- P1: START.OW emits CLEAR of channel 0 and latches the window (0, 2001). -/
theorem test_startOw :
    after (exec .startOw owReady1) (fun t => (readReg t 0x18, t.ops, t.owWork.mask, t.owWork.tStart, t.owWork.tEnd))
    = some (0x001#64, [.record [0x0000000000000001#64]], 1#32, 0, 2001) := rfl

/-- HC-6 b: a window with its start after its end is refused, OW_STATUS = 0x023. -/
theorem test_startOw_refused :
    after (exec .startOw { owReady1 with owConfig := ⟨5#64, 4#64, 0#64, 0#64⟩ }) (fun t => readReg t 0x18) = some 0x23#64 := rfl

/-- A legal JTAG configuration over `tap4` without TDI. -/
def jtReady1 : State := { loaded tap4 with jtConfig := ⟨0#64, 4#64, 0#64, 1#64, 0xFF#64, 3#64⟩ }

/-- R250: CLEAR for TCK, TMS and the one optional line present. -/
theorem test_startJtag :
    after (exec .startJtag jtReady1) (fun t => (readReg t 0x28, t.ops, t.jtWork.tdi, t.jtWork.tdo))
    = some (0x001#64, [.record [0x0000000000000001#64], .record [0x0000000000000101#64], .record [0x0000000000000301#64]], none, some 3#8) :=
  rfl

/-- A legal UART configuration over `uart5`: RX on channel 0, CTS on channel 2. -/
def uaReady1 : State :=
  { loaded uart5 with uaConfig := { UaConfig.reset with winE := 6#64, rxd := 0#64, cts := 2#64, frame := 0x00#64, baud := 100000#64 } }

/-- R291: the lanes RX and CTS in the fixed order, and the window (0, 201). -/
theorem test_startUart :
    after (exec .startUart uaReady1) (fun t => (readReg t 0x3C, t.ops, t.uaWork.lanes, t.uaWork.cursor, t.uaWork.tEnd))
    = some (0x001#64, [.record [0x0000000000000001#64], .record [0x0000000000000201#64]], [⟨.rx, 0#8⟩, ⟨.cts, 2#8⟩], 0, 201) := rfl

/-- HC-4: a CANCEL raises the pending bit, OW_STATUS = 0x101. -/
theorem test_cancelOw : after (exec .cancelOw (owAt .loop owP1)) (fun t => readReg t 0x18) = some 0x101#64 := rfl

theorem test_cancelJtag : after (exec .cancelJtag (jtAt .scan jtW)) (fun t => readReg t 0x28) = some 0x101#64 := rfl

/-- HC-10: a CANCEL of an engine that is not RUNNING does nothing. -/
theorem test_cancelUart :
    after (exec .cancelUart (uaAt .lane uaW)) (fun t => readReg t 0x3C) = some 0x101#64
    ∧ after (exec .cancelUart State.reset) (fun t => readReg t 0x3C) = some 0#64 := ⟨rfl, rfl⟩

/-- ES-1 as a host command: 599 finds entry 2 at 580. -/
theorem test_valueAt :
    after (exec .valueAt { loaded bufB with prT0 := 599#64 }) (fun t => (t.prStat, t.prResIdx, t.prResTs, t.prResVal))
    = some (1#64, 2#64, 580#64, 1#64) := rfl

/-- ES-1: a time before the first entry leaves PR_STAT = 2 and the result registers 0. -/
theorem test_valueAt_before :
    after (exec .valueAt { loaded bufB with prT0 := 0xFFFFFFFFFFFFFFFF#64, prResIdx := 9#64 }) (fun t => (t.prStat, t.prResIdx))
    = some (2#64, 0#64) := rfl

/-- ES-5 as a host command: over (100, 801) with both channels the falling edge is entry 5 at 800. -/
theorem test_findEdge :
    after (exec .findEdge { loaded bufB with prT0 := 100#64, prT1 := 801#64, prMask := 3#64, prDir := 1#64 })
      (fun t => (t.prStat, t.prResIdx, t.prResTs, t.prResVal)) = some (1#64, 5#64, 800#64, 0#64) := rfl

/-- ES-5: over (100, 800) there is none. -/
theorem test_findEdge_none :
    after (exec .findEdge { loaded bufB with prT0 := 100#64, prT1 := 800#64, prMask := 3#64, prDir := 1#64 }) (fun t => t.prStat)
    = some 2#64 := rfl

/-- HC-11: RESET during a run leaves OW_STATUS = 0, OW_LINE = 0xFF and the capture. -/
theorem test_reset :
    after (exec .reset (owAt .scan owP1)) (fun t => (readReg t 0x18, readReg t 0x12, readReg t 0x00)) = some (0#64, 0xFF#64, 8#64) := rfl

/-- R344: CLEAR goes to the stream of the executing engine only. -/
theorem test_clear :
    after (exec (.clear 3#8) { State.reset with cur := .jtag }) (fun t => (t.jtOut.stream, t.jtOut.result, t.owOut.stream))
    = some ([[0x0000000000000301#64]], [], []) := rfl

/-- R347: PROGRESS 52 writes the progress register and the record. -/
theorem test_progress :
    after (exec (.progress 52#8) (owAt .loop owP1)) (fun t => (readReg t 0x19, t.owOut.stream)) = some (52#64, [[0x000000000034FF02#64]]) := rfl

/-- P1's END: DONE with two symbols, OW_STATUS = 0x002. -/
theorem test_endRun :
    after (exec (.endRun 2#8 0#8 2#64 0#64) (owAt .idle owP1)) (fun t => (readReg t 0x18, t.owOut.stream))
    = some (0x002#64, [[0x000000020002FF03#64, 2#64, 0#64]]) := rfl

/-- P1's reset symbol: one symbol, no error, in the result memory and the stream. -/
theorem test_owReset :
    after (exec (.owReset 0#8 true 0x64#64 0x244#64) (owAt .progress owP1))
      (fun t => (readReg t 0x1A, readReg t 0x1B, t.owOut.result, t.owOut.stream))
    = some (1#64, 0#64, [[0x0000000201000010#64, 0x64#64, 0x244#64]], [[0x0000000201000010#64, 0x64#64, 0x244#64]]) := rfl

theorem test_owByte :
    after (exec (.owByte 0#8 0xCC#8 0x44C#64 0x677#64) (owAt .progress owP1)) (fun t => (readReg t 0x1A, readReg t 0x1B, t.owOut.result))
    = some (1#64, 0#64, [[0x0000000200CC0011#64, 0x44C#64, 0x677#64]]) := rfl

/-- R343: a BusError is one symbol and one error. -/
theorem test_owBusError :
    after (exec (.owBusError 0#8 0x32#64 0x32#64) (owAt .progress owP1)) (fun t => (readReg t 0x1A, readReg t 0x1B)) = some (1#64, 1#64) := rfl

theorem test_jtState :
    after (exec (.jtState 1#8 .testLogicReset 0#64 2#64) (jtAt .progress jtW)) (fun t => (readReg t 0x2A, t.jtOut.result))
    = some (1#64, [[0x0000000280000120#64, 0#64, 2#64]]) := rfl

theorem test_jtShiftTdi :
    after (exec (.jtShiftTdi 2#8 [0xA#64, 0xE#64, 3#64, 5#64]) (jtAt .span jtW)) (fun t => (readReg t 0x2A, t.jtOut.result))
    = some (1#64, [[0x0000000480000221#64, 0xA#64, 0xE#64, 3#64, 5#64]]) := rfl

theorem test_jtShiftTdo :
    after (exec (.jtShiftTdo 3#8 [0xA#64, 0xE#64, 3#64, 1#64]) (jtAt .span jtW)) (fun t => (readReg t 0x2B, t.jtOut.stream))
    = some (0#64, [[0x0000000480010321#64, 0xA#64, 0xE#64, 3#64, 1#64]]) := rfl

/-- R343: a UA_DATA counts one error for each of its flags. -/
theorem test_uaDataRx :
    after (exec (.uaDataRx 0#8 0x41#8 true true 0x64#64 0xC3#64) (uaAt .resume uaW)) (fun t => (readReg t 0x3E, readReg t 0x3F, t.uaOut.result))
    = some (1#64, 2#64, [[0x0000000203410030#64, 0x64#64, 0xC3#64]]) := rfl

theorem test_uaDataTx :
    after (exec (.uaDataTx 1#8 0x41#8 false false 0x64#64 0xC3#64) (uaAt .resume uaW)) (fun t => (readReg t 0x3F, t.uaOut.result))
    = some (0#64, [[0x0000000204410130#64, 0x64#64, 0xC3#64]]) := rfl

theorem test_uaEvent :
    after (exec (.uaEvent 2#8 5#4 0x32#64 0x32#64) (uaAt .progress uaW)) (fun t => (readReg t 0x3E, t.uaOut.stream))
    = some (1#64, [[0x0000000200050231#64, 0x32#64, 0x32#64]]) := rfl

/-- The next codes of the 32 rows, in row order: the array of R247. -/
theorem test_tap_rows :
    [Instr.tapTestLogicReset0, .tapTestLogicReset1, .tapRunTestIdle0, .tapRunTestIdle1, .tapSelectDr0, .tapSelectDr1,
      .tapCaptureDr0, .tapCaptureDr1, .tapShiftDr0, .tapShiftDr1, .tapExit1Dr0, .tapExit1Dr1,
      .tapPauseDr0, .tapPauseDr1, .tapExit2Dr0, .tapExit2Dr1, .tapUpdateDr0, .tapUpdateDr1,
      .tapSelectIr0, .tapSelectIr1, .tapCaptureIr0, .tapCaptureIr1, .tapShiftIr0, .tapShiftIr1,
      .tapExit1Ir0, .tapExit1Ir1, .tapPauseIr0, .tapPauseIr1, .tapExit2Ir0, .tapExit2Ir1,
      .tapUpdateIr0, .tapUpdateIr1].map
      (fun i => after (exec i (jtAt .clear jtW)) (fun t => t.jtWork.current.code.toNat))
    = ([1, 0, 1, 2, 3, 9, 4, 5, 4, 5, 6, 8, 6, 7, 4, 8, 1, 2, 10, 0, 11, 12, 11, 12, 13, 15, 13, 14, 11, 15, 1, 2] : List Nat).map some := rfl

/-- R195: each class names its handler. -/
theorem test_classes :
    [Instr.clsUnknown, .clsOne, .clsZero, .clsReset].map (fun i => after (exec i (owAt .scan owP1)) (fun t => t.owPc))
    = [some .unknown, some .one, some .zero, some .reset] := rfl

/-! ## Engine steps, from the programs -/

/-- P1, first iteration: the pulse from 100 to 580 is a RESET (code 3). -/
theorem test_owScan :
    after (engineTurn .ow (owAt .scan owP1)) (fun t => (t.owWork.f, t.owWork.r, t.ops)) = some (100, 580, [.cls 3#2]) := rfl

/-- P1, first iteration: present, the cursor at 1052. -/
theorem test_owReset_step :
    after (engineTurn .ow (owAt .reset { owP1 with f := 100, r := 580 })) (fun t => (t.owWork.cursor, t.ops))
    = some (1052, [.record [0x0000000201000010#64, 0x64#64, 0x244#64]]) := rfl

/-- P1, last iteration: the eighth bit completes 0xCC, from 1100 to 1655. -/
theorem test_owByte_step :
    after (engineTurn .ow (owAt .one { owP1 with f := 1590, bitCount := 1, byteValue := 0x98#8, byteStart := some 1100 }))
      (fun t => (t.owWork.bitCount, t.ops)) = some (8, [.record [0x0000000200CC0011#64, 0x44C#64, 0x677#64]]) := rfl

/-- CL-1 under T-STD: the boundaries 5, 23.5, 24, 120, 121, 479, 480, 640, 641 microseconds. -/
theorem test_classify_boundaries :
    [(5, 1), (47, 2), (24, 1), (120, 1), (121, 1), (479, 1), (480, 1), (640, 1), (641, 1), (4, 1)].map
      (fun p : Int × Nat => classify tStd ⟨p.1, p.2⟩)
    = [.one, .one, .zero, .zero, .unknown, .unknown, .reset, .reset, .unknown, .unknown] := by decide

/-- CL-5 (R172): `TICKS(65)` at 300 kHz is 19, and `TICKS(US(1)) = 1` at 24 MHz, where one unit is 41.66... nanoseconds. -/
theorem test_ticks : ticksOf 300000#64 ⟨65, 1⟩ = 19 ∧ ticksOf 24000000#64 (us 24000000#64 1) = 1 := by decide

/-- R173, R174 under T-STD: 65 and 952 microseconds. -/
theorem test_frames : bitFrame tStd = 65000 ∧ resetFrame tStd = 952000 ∧ ticks 4000000#64 (bitFrame tStd) = 260 := by decide

/-- JTAG.STEP samples TMS in the very entry of the edge: entry 3 of `tap4` has TMS high, so row 1 of TEST_LOGIC_RESET. -/
theorem test_jtStep : after (engineTurn .jtag (jtAt .step { jtW with idx := 3 })) (fun t => t.ops) = some [.tap 1#5] := rfl

/-- R117's example: shifting 1, then 0, then 0 gives the string 001, bit word 1. -/
theorem test_shift_words : shiftBody 10 14 [false, false, true] = [10#64, 14#64, 3#64, 1#64] := rfl

/-- The frame of `uart5`: bits 1 0 0 0 1, first bit lowest, is 0x11. -/
theorem test_uaData : after (engineTurn .uart (uaAt .data uaW)) (fun t => t.uaWork.value) = some 0x11#8 := rfl

/-- R296: a cell of 1000000/115200 from 1000: the first data sample is at floor(1000 + 1.5 * 8.6805...) = 1013. -/
theorem test_sampleTime : sampleTime 1000 ⟨1000000, 115200⟩ 6 = 1013 := by decide

/-! ## Witnesses: the hypotheses of the statements met together -/

/-- StepRunsDecodedOperation. -/
theorem witness_StepRunsDecodedOperation :
    (State.reset.withFetchWord 8 0x13).ops = OpWord.tap 0x13#5 :: [] ∧ decode (.tap 0x13#5) = .ok .tapSelectIr1
    ∧ Instr.tapSelectIr1.wf = true := ⟨rfl, rfl, rfl⟩

/-- StepWithoutWordActsOrTurns: an action waiting, one engine RUNNING, none RUNNING. -/
theorem witness_StepWithoutWordActsOrTurns :
    (({ State.reset with inbox := [.readReg 0] } : State).ops = [] ∧ ({ State.reset with inbox := [.readReg 0] } : State).inbox = .readReg 0 :: [])
    ∧ ((owAt .scan owP1).ops = [] ∧ (owAt .scan owP1).inbox = [] ∧ ((owAt .scan owP1).out .ow).status.state = .running
      ∧ ((owAt .scan owP1).out .jtag).status.state ≠ .running ∧ ((owAt .scan owP1).out .uart).status.state ≠ .running)
    ∧ (State.reset.ops = [] ∧ State.reset.inbox = [] ∧ ∀ e : EngineId, (State.reset.out e).status.state ≠ .running) := by
  refine ⟨⟨rfl, rfl⟩, ⟨rfl, rfl, rfl, by decide, by decide⟩, rfl, rfl, fun e => by cases e <;> decide⟩

/-- DecodeInvertsEncode, on a record with a body; EncodeInvertsDecode and SerialisedRecordReadsBack, on its words. -/
theorem witness_encoding :
    (Instr.jtShiftTdo 31#8 [0xA#64, 0xE#64, 3#64, 7#64]).wf = true
    ∧ decode (.record [0x0000000480011F21#64, 0xA#64, 0xE#64, 3#64, 7#64]) = .ok (.jtShiftTdo 31#8 [0xA#64, 0xE#64, 3#64, 7#64])
    ∧ decodeRecord [0x0000000480011F21#64, 0xA#64, 0xE#64, 3#64, 7#64] = .ok (.jtShiftTdo 31#8 [0xA#64, 0xE#64, 3#64, 7#64])
    ∧ [0x0000000480011F21#64, 0xA#64, 0xE#64, 3#64, 7#64].length ≤ 2 ^ 32 := ⟨by decide, rfl, rfl, by decide⟩

/-- IllegalCommandOnlySetsStickyBit: the words of HC-5, and a step with the bit set. -/
theorem witness_IllegalCommandOnlySetsStickyBit :
    (∀ v ∈ [0x000#64, 0x006#64, 0x301#64, 0x103#64, 0x401#64, 0x100000001#64],
      v ∉ [0x1#64, 0x101#64, 0x201#64, 0x2#64, 0x102#64, 0x202#64, 0x3#64, 0x4#64, 0x5#64])
    ∧ ({ State.reset with ops := [.cmd 0x301#64] } : State).ops = .cmd 0x301#64 :: []
    ∧ ({ State.reset with cmdInvalid := true } : State).cmdInvalid = true
    ∧ step { State.reset with cmdInvalid := true } = .next { State.reset with cmdInvalid := true } := by
  refine ⟨by simp, rfl, rfl, rfl⟩

/-- StartWhileRunningIsIgnored. -/
theorem witness_StartWhileRunningIsIgnored :
    (owAt .scan owP1).owOut.status.state = .running ∧ (jtAt .scan jtW).jtOut.status.state = .running
    ∧ (uaAt .lane uaW).uaOut.status.state = .running := ⟨rfl, rfl, rfl⟩

/-- StartRefusedForIllegalConfiguration: the reset block, whose SB_RATE is 0. -/
theorem witness_StartRefused :
    State.reset.owOut.status.state ≠ .running ∧ ¬owLegal State.reset ∧ State.reset.jtOut.status.state ≠ .running ∧ ¬jtLegal State.reset
    ∧ State.reset.uaOut.status.state ≠ .running ∧ ¬uaLegal State.reset :=
  ⟨by decide, fun h => h.1 rfl, by decide, fun h => h.1 rfl, by decide, fun h => h.1 rfl⟩

/-- AcceptedOneWireStartLatches, at the largest window, and at an empty window with channel 31 (HC-6, not refused). -/
theorem witness_AcceptedOneWireStartLatches :
    owReady1.owOut.status.state ≠ .running ∧ owLegal owReady1
    ∧ owLegal { owReady1 with owConfig := ⟨8#64, 8#64, 0x1F#64, 1#64⟩ } := by
  refine ⟨by decide, ?_, ?_⟩ <;> (unfold owLegal windowFits namesChannel; decide)

/-- AcceptedJtagStartLatches, with one optional line absent. -/
theorem witness_AcceptedJtagStartLatches : jtReady1.jtOut.status.state ≠ .running ∧ jtLegal jtReady1 := by
  refine ⟨by decide, ?_⟩
  unfold jtLegal windowFits namesChannel namesChannelOrAbsent
  decide

/-- AcceptedUartStartLatches: with lanes, without a lane, and with the greatest baud. -/
theorem witness_AcceptedUartStartLatches :
    uaReady1.uaOut.status.state ≠ .running ∧ uaLegal uaReady1
    ∧ uaLegal { uaReady1 with uaConfig := { UaConfig.reset with baud := 0xFFFFFFFF#64, frame := 0x6B#64 } } := by
  refine ⟨by decide, ?_, ?_⟩ <;> (unfold uaLegal windowFits namesChannelOrAbsent; decide)

/-- ValueAtCommandStoresHeldEntry: no entry, before the first, and at the first. -/
theorem witness_ValueAtCommandStoresHeldEntry :
    State.reset.samples = []
    ∧ (∃ x, (loaded bufB).samples[0]? = some x ∧ ({ loaded bufB with prT0 := 0xFFFFFFFFFFFFFFFF#64 } : State).prT0.toInt < x.time)
    ∧ ∃ x, (loaded bufB).samples[0]? = some x ∧ x.time ≤ (loaded bufB).prT0.toInt :=
  ⟨rfl, ⟨_, rfl, by decide⟩, ⟨_, rfl, by decide⟩⟩

/-- FindEdgeCommandStoresFirstEdge: ES-2, no edge in (100, 580), and the first edge in (100, 581). -/
theorem witness_FindEdgeCommandStoresFirstEdge :
    (∀ i x, ¬edgeWithin bufB 100 580 1#32 .rising i x)
    ∧ edgeWithin bufB 100 581 1#32 .rising 2 ⟨580#64, 1#32⟩
    ∧ ∀ j y, j < 2 → ¬edgeWithin bufB 100 581 1#32 .rising j y := by
  have h := (findEdge_eq_some bufB 100 581 1#32 .rising ⟨2, 580#64, 1#32⟩).1 (by decide)
  exact ⟨(findEdge_eq_none bufB 100 580 1#32 .rising).1 (by decide), h.1, fun j y hj => h.2 j hj y⟩

/-- EndRecordWritesStatus: the first codes that no engine has. -/
theorem witness_EndRecordWritesStatus : 4 < (5#8 : Byte).toNat ∧ 2 < (3#8 : Byte).toNat := by decide

/-- The symbol statements: one of each form, and a body that LEN can count. -/
theorem witness_symbols :
    Instr.owBusError 0#8 5#64 5#64 = .owBusError 0#8 5#64 5#64 ∧ recordWords (.owBusError 0#8 5#64 5#64) = [headerWord 0x12 0 0 0 2, 5#64, 5#64]
    ∧ recordWords (.jtShiftTdo 3#8 [0#64, 0#64, 1#64, 1#64]) = headerWord 0x21 3 1 0x80 4 :: [0#64, 0#64, 1#64, 1#64]
    ∧ ([0#64, 0#64, 1#64, 1#64] : List Word).length < 2 ^ 32
    ∧ recordWords (.uaDataTx 1#8 0x41#8 true false 5#64 6#64) = [headerWord 0x30 1 0x41 5 2, 5#64, 6#64] :=
  ⟨rfl, rfl, rfl, by decide, rfl⟩

/-- MemoryImageIsLittleEndian: the last entry of a memory, at the last byte of its timestamp and of its value. -/
theorem witness_MemoryImageIsLittleEndian :
    bufB[5]? = some ⟨800#64, 0#32⟩ ∧ 7 < 8 ∧ 3 < 4
    ∧ (memoryBytes bufB)[12 * 5 + 1]? = some ((800#64 : Word).extractLsb' (8 * 1) 8) := ⟨rfl, by decide, by decide, rfl⟩

/-- TapRowsFollowTable, its second clause. -/
theorem witness_TapRowsFollowTable : encode .tapUpdateIr1 = .tap 0x1F#5 := rfl

/-- ClassifierTestsInOrder: 23.5 microseconds. -/
theorem witness_ClassifierTestsInOrder : 0 < 2 ∧ (47 / 2 : ℚ) = ((47 : Int) : ℚ) / ((2 : Nat) : ℚ) := ⟨by decide, by norm_num⟩

/-- UnitConversionsAreExact and PresenceIsReleaseThenPull: any rate but 0, and a duration that is no whole number of nanoseconds. -/
theorem witness_rate : (1000000#64 : Word) ≠ 0#64 ∧ 0 < (⟨125, 3⟩ : Frac).den := by decide

/-- WindowHoldsItsEntries: ES-8, a window inside and one up to the last entry. -/
theorem witness_WindowHoldsItsEntries : bufB.wf = true ∧ 2 < 4 ∧ 4 ≤ bufB.length ∧ 5 < 6 ∧ 6 ≤ bufB.length := by decide

/-- OneWireInitFindsIdleOrFails: idle at entry 0, and a line that is never high (OW-9). -/
theorem witness_OneWireInitFindsIdleOrFails :
    ((owAt .init owP1).owOut.status.state = .running ∧ (owAt .init owP1).owPc = .init ∧ (owAt .init owP1).ops = []
      ∧ 0 ≤ 0 ∧ 0 < (owAt .init owP1).owWork.winE ∧ (owAt .init owP1).samples[0]? = some ⟨0#64, 1#32⟩
      ∧ (1#32 &&& (owAt .init owP1).owWork.mask) ≠ 0#32)
    ∧ ∀ i x, 0 ≤ i → i < 2 → ([⟨0#64, 0#32⟩, ⟨10#64, 0#32⟩] : Memory)[i]? = some x → x.val &&& 1#32 = 0#32 := by
  refine ⟨by decide, fun i x _ hi hx => ?_⟩
  interval_cases i <;> (simp only [List.getElem?_cons_zero, List.getElem?_cons_succ, Option.some.injEq] at hx; subst hx; decide)

/-- OneWireScanClassifiesNextPulse: at the loop, no falling edge left, an edge with its rise, and an edge without one. -/
theorem witness_OneWireScanClassifiesNextPulse :
    (owAt .loop owP1).owOut.status.cancelPending = false
    ∧ findEdge bus 1160 2001 1#32 .falling = none
    ∧ findEdge bus 0 2001 1#32 .falling = some ⟨1, 100#64, 0#32⟩ ∧ findEdge bus 100 2001 1#32 .rising = some ⟨2, 580#64, 1#32⟩
    ∧ findEdge bus 1000 1150 1#32 .falling = some ⟨5, 1100#64, 0#32⟩ ∧ findEdge bus 1100 1150 1#32 .rising = none := by decide

/-- OneWireResetAndUnknownHandlers: a reset, an unknown pulse with a byte in progress (OW-7), and one without (OW-8). -/
theorem witness_OneWireResetAndUnknownHandlers :
    ((owAt .reset owP1).owOut.status.state = .running ∧ (owAt .reset owP1).owPc = .reset)
    ∧ ((owAt .unknown { owP1 with bitCount := 7, byteStart := some 1100 }).owPc = .unknown
      ∧ (owAt .unknown { owP1 with bitCount := 7, byteStart := some 1100 }).owWork.bitCount < 8
      ∧ (owAt .unknown { owP1 with bitCount := 7, byteStart := some 1100 }).owWork.byteStart = some 1100)
    ∧ 8 ≤ (owAt .unknown owP1).owWork.bitCount := by decide

/-- OneWireBitHandlers: the first bit, the seventh, and the eighth, of both handlers. -/
theorem witness_OneWireBitHandlers :
    ((owAt .zero owP1).owPc = .zero ∧ 2 ≤ owP1.bitCount ∧ owP1.bitCount ≤ 8)
    ∧ ((owAt .one { owP1 with bitCount := 2, byteStart := some 1100 }).owPc = .one
      ∧ 2 ≤ (owAt .one { owP1 with bitCount := 2, byteStart := some 1100 }).owWork.bitCount)
    ∧ (owAt .one { owP1 with bitCount := 1, byteStart := some 1100 }).owWork.bitCount = 1
    ∧ (owAt .one { owP1 with bitCount := 1, byteStart := some 1100 }).owWork.byteStart = some 1100 := by decide

/-- EightBitsAssembleFirstBitLowest. -/
theorem witness_EightBits : [false, false, true, true, false, false, true, true].length = 8 ∧ 0 < 8 ∧ 7 < 8 := by decide

/-- ProgressReportsFractionDone: P1's 52, a JTAG run at its second entry of four, and half of the only lane. -/
theorem witness_ProgressReportsFractionDone :
    ((owAt .progress { owP1 with cursor := 1052 }).owPc = .progress ∧ ((52 : Nat) : Int) = max 0 (min 100 ⌊((1052 - 0 : Int) : ℚ) * 100 / ((2001 - 0 : Int) : ℚ)⌋))
    ∧ ((jtAt .progress { jtW with idx := 1 }).jtPc = .progress
      ∧ ((25 : Nat) : Int) = max 0 (min 100 ⌊(((1 : Nat) : ℚ) - ((0 : Nat) : ℚ)) * 100 / (((4 : Nat) : ℚ) - ((0 : Nat) : ℚ))⌋))
    ∧ ((uaAt .progress { uaW with cursor := 201 }).uaPc = .progress ∧ uaW.lanes[uaW.lane]? = some ⟨.rx, 0#8⟩
      ∧ ((100 : Nat) : Int) = max 0 (min 100 ⌊(((0 : Nat) : ℚ) + max 0 (min 1 (((201 - 0 : Int) : ℚ) / ((201 - 0 : Int) : ℚ)))) * 100
          / ((uaW.lanes.length : Nat) : ℚ)⌋)) := by
  have h1 : ⌊((1052 - 0 : Int) : ℚ) * 100 / ((2001 - 0 : Int) : ℚ)⌋ = 52 := by rw [Int.floor_eq_iff]; norm_num
  have h2 : ⌊(((1 : Nat) : ℚ) - ((0 : Nat) : ℚ)) * 100 / (((4 : Nat) : ℚ) - ((0 : Nat) : ℚ))⌋ = 25 := by rw [Int.floor_eq_iff]; norm_num
  have h3 : ⌊(((0 : Nat) : ℚ) + max 0 (min 1 (((201 - 0 : Int) : ℚ) / ((201 - 0 : Int) : ℚ)))) * 100 / ((uaW.lanes.length : Nat) : ℚ)⌋ = 100 := by
    rw [Int.floor_eq_iff]; norm_num [uaW]
  rw [h1, h2, h3]
  decide

/-- ProgressNeverDecreases. -/
theorem witness_ProgressNeverDecreases : (0 : Int) < 2001 ∧ (1052 : Int) ≤ 1165 ∧ 0 < 2 ∧ 1 < 2 ∧ 0 < 1 := by decide

/-- A pending CANCEL. -/
def pending : EngineOut := { EngineOut.reset with status := ⟨.running, .none, true⟩ }

/-- PendingCancelEndsRunAtCheckPoint: each of the four check points. -/
theorem witness_PendingCancelEndsRunAtCheckPoint :
    ∀ p ∈ [(EngineId.ow, { owAt .loop owP1 with owOut := pending }), (.jtag, { jtAt .scan jtW with jtOut := pending }),
        (.uart, { uaAt .lane uaW with uaOut := pending }), (.uart, { uaAt .hs uaW with uaOut := pending })],
      (p.2.out p.1).status.state = .running ∧ (p.2.out p.1).status.cancelPending = true ∧ atCheckPoint p.1 p.2 ∧ p.2.ops = [] := by
  intro p hp
  simp only [List.mem_cons, List.not_mem_nil, or_false] at hp
  rcases hp with rfl | rfl | rfl | rfl
  · exact ⟨rfl, rfl, rfl, rfl⟩
  · exact ⟨rfl, rfl, rfl, rfl⟩
  · exact ⟨rfl, rfl, .inl rfl, rfl⟩
  · exact ⟨rfl, rfl, .inr rfl, rfl⟩

/-- NormalEndReportsHundredThenDone: each engine. -/
theorem witness_NormalEndReportsHundredThenDone :
    ∀ p ∈ [(EngineId.ow, owAt .done owP1), (.jtag, jtAt .done jtW), (.uart, uaAt .done uaW)],
      (p.2.out p.1).status.state = .running ∧ atDone p.1 p.2 ∧ p.2.ops = [] := by
  intro p hp
  simp only [List.mem_cons, List.not_mem_nil, or_false] at hp
  rcases hp with rfl | rfl | rfl <;> exact ⟨rfl, rfl, rfl⟩

/-- JtagScanTakesRowAtClockEdge: an empty window, a window, no further edge, an edge, and the sampling of TMS. -/
theorem witness_JtagScanTakesRowAtClockEdge :
    ((jtAt .init { jtW with winE := 0 }).jtPc = .init ∧ (jtAt .init { jtW with winE := 0 }).jtWork.winS = (jtAt .init { jtW with winE := 0 }).jtWork.winE)
    ∧ ((jtAt .init jtW).jtWork.winS < (jtAt .init jtW).jtWork.winE ∧ window (jtAt .init jtW).samples 0 4 = some (0, 16))
    ∧ ((jtAt .scan { jtW with idx := 3 }).samples[3]? = some ⟨15#64, 3#32⟩ ∧ findEdge tap4 15 16 (1#32 <<< 0) .rising = none)
    ∧ ((jtAt .scan jtW).samples[0]? = some ⟨0#64, 0#32⟩ ∧ findEdge tap4 0 16 (1#32 <<< 0) .rising = some ⟨1, 5#64, 1#32⟩)
    ∧ ((jtAt .step { jtW with idx := 3 }).jtPc = .step ∧ jtW.tms.toNat < 32) := by decide

/-- JtagCaptureClearsShiftPrepends: both TDI and TDO present, and neither. -/
theorem witness_JtagCaptureClearsShiftPrepends :
    (jtAt .clear { jtW with current := .captureDr }).jtPc = .clear
    ∧ ((jtAt .shift { jtW with current := .shiftIr, idx := 3 }).jtPc = .shift ∧ tap4[3]? = some ⟨15#64, 3#32⟩
      ∧ (∀ ch, jtW.tdi = some ch → ch.toNat < 32) ∧ ∀ ch, jtW.tdo = some ch → ch.toNat < 32) := by
  refine ⟨rfl, rfl, rfl, fun ch h => ?_, fun ch h => ?_⟩ <;>
    (simp only [jtW, Option.some.injEq] at h; subst h; decide)

/-- JtagUpdateAndSpanEmit: another state, an Update without a bit, an Update with bits, and a span that stays or ends. -/
theorem witness_JtagUpdateAndSpanEmit :
    ((jtAt .update jtW).jtWork.current ≠ .updateDr ∧ (jtAt .update jtW).jtWork.current ≠ .updateIr)
    ∧ ((jtAt .update { jtW with current := .updateIr }).jtWork.current = .updateIr ∧ jtW.shiftFirst = none)
    ∧ ((jtAt .update { jtW with current := .updateDr, shiftFirst := some 1, shiftLast := some 3 }).jtWork.shiftFirst = some 1
      ∧ (jtAt .update { jtW with current := .updateDr, shiftFirst := some 1, shiftLast := some 3 }).jtWork.shiftLast = some 3)
    ∧ (jtAt .span jtW).jtWork.current = (jtAt .span jtW).jtWork.previous
    ∧ (jtAt .span { jtW with current := .runTestIdle }).jtWork.current ≠ (jtAt .span { jtW with current := .runTestIdle }).jtWork.previous := by
  decide

/-- UartSampleInstants: UA-7's cell, and the first and the last data bit. -/
theorem witness_UartSampleInstants : 0 < 115200 ∧ (0 : Int) ≤ 1000000 ∧ 0 < 8 ∧ 7 < 8 := by decide

/-- UartStartBitAndCell: at the loop, an edge and none, a configured baud, and a measured cell. -/
theorem witness_UartStartBitAndCell :
    (uaAt .lane uaW).uaOut.status.state = .running ∧ uaW.lanes[uaW.lane]? = some ⟨.rx, 0#8⟩ ∧ (uaAt .lane uaW).uaOut.status.cancelPending = false
    ∧ ((uaAt .startBit uaW).uaPc = .startBit ∧ findEdge uart5 0 201 (1#32 <<< 0) .falling = some ⟨1, 10#64, 0#32⟩
      ∧ findEdge uart5 30 201 (1#32 <<< 0) .falling = none)
    ∧ ((uaAt .cell uaW).uaPc = .cell ∧ uaW.baud ≠ 0#64)
    ∧ ({ uaW with baud := 0#64 } : UaWork).baud = 0#64 := by decide

/-- UartDataSamplesCellCentres: five bits, every centre inside the capture. -/
theorem witness_UartDataSamplesCellCentres :
    (uaAt .data uaW).uaOut.status.state = .running ∧ (uaAt .data uaW).uaPc = .data ∧ uaW.lanes[uaW.lane]? = some ⟨.rx, 0#8⟩
    ∧ ∀ k, k < uaW.frame.toNat % 4 + 5 → level uart5 (sampleTime uaW.t0 uaW.cell (4 * k + 6)) 0#8 = some ([true, false, false, false, true].getD k false) := by
  refine ⟨rfl, rfl, rfl, ?_⟩
  decide

/-- UartDataSamplesCellCentres, its clauses about LEVEL: at the first entry, at the last channel, and just before the first entry. -/
theorem witness_UartDataLevel :
    (31#8 : Byte).toNat < 32 ∧ (∃ x, bufB[0]? = some x ∧ x.time ≤ 0) ∧ ∀ x, bufB[0]? = some x → -1 < x.time :=
  ⟨by decide, ⟨_, rfl, by decide⟩, fun _ h => by cases h; decide⟩

/-- UartParityCheck: no parity, and even parity with its sample inside the capture. -/
theorem witness_UartParityCheck :
    ((uaAt .parity uaW).uaPc = .parity ∧ (uaAt .parity uaW).uaWork.frame.toNat / 4 % 4 = 0)
    ∧ ((0x08#64 : Word).toNat / 4 % 4 = 2 ∧ level uart5 (sampleTime 10 ⟨10, 1⟩ (4 * ((0x08#64 : Word).toNat % 4 + 5) + 6)) 0#8 = some true
      ∧ true = (true ^^ (0x08#64 : Word).getLsbD 6) ∧ 3 = ((List.range 8).filter fun k => (0x11#8 : Byte).getLsbD k).length + true.toNat) := by
  decide

/-- UartStopCheck: each setting of the stop bits and of the parity, with samples inside the capture. -/
theorem witness_UartStopCheck :
    (uaAt .stop uaW).uaPc = .stop
    ∧ (stopPositions 5 0 .one).map (fun q => level uart5 (sampleTime 10 ⟨10, 1⟩ q) 0#8) = [true].map some
    ∧ (stopPositions 5 1 .oneAndHalf).map (fun q => level uart5 (sampleTime 10 ⟨10, 1⟩ q) 0#8) = [true, true].map some
    ∧ (stopPositions 5 1 .two).map (fun q => level uart5 (sampleTime 10 ⟨10, 1⟩ q) 0#8) = [true, true].map some
    ∧ ((0x14#64 : Word).toNat / 16 % 4 = 1 ∧ (0x14#64 : Word).toNat / 4 % 4 ∈ [1, 2])
    ∧ ((0x28#64 : Word).toNat / 16 % 4 = 2 ∧ (0x28#64 : Word).toNat / 4 % 4 ∈ [1, 2]) := by decide

/-- UartEmitThenResume: a lane of each direction. -/
theorem witness_UartEmitThenResume :
    ((uaAt .emit uaW).uaPc = .emit ∧ uaW.lanes[uaW.lane]? = some ⟨.rx, 0#8⟩)
    ∧ ((uaAt .emit { uaW with lanes := [⟨.tx, 1#8⟩] }).uaPc = .emit ∧ ({ uaW with lanes := [⟨.tx, 1#8⟩] } : UaWork).lanes[0]? = some ⟨.tx, 1#8⟩)
    ∧ (uaAt .resume uaW).uaPc = .resume := by decide

/-- The latched registers of a handshake lane. -/
def hsW : UaWork := { uaW with lanes := [⟨.ri, 0#8⟩] }

/-- UartHandshakeReportsEdges: no edge left, a rising edge first, a falling edge first, and the event itself. -/
theorem witness_UartHandshakeReportsEdges :
    ((uaAt .hs hsW).uaPc = .hs ∧ (uaAt .hs hsW).uaOut.status.cancelPending = false ∧ hsW.lanes[hsW.lane]? = some ⟨.ri, 0#8⟩
      ∧ [LaneKind.cts, .rts, .dtr, .dsr, .dcd, .ri][5]? = some .ri)
    ∧ (findEdge uart5 60 201 (1#32 <<< 0) .rising = none ∧ findEdge uart5 60 201 (1#32 <<< 0) .falling = none)
    ∧ (findEdge uart5 10 201 (1#32 <<< 0) .rising = some ⟨2, 20#64, 1#32⟩ ∧ findEdge uart5 10 201 (1#32 <<< 0) .falling = some ⟨3, 30#64, 0#32⟩)
    ∧ (findEdge uart5 0 201 (1#32 <<< 0) .falling = some ⟨1, 10#64, 0#32⟩ ∧ findEdge uart5 0 201 (1#32 <<< 0) .rising = some ⟨2, 20#64, 1#32⟩)
    ∧ (uaAt .hsEvent hsW).uaPc = .hsEvent := by decide

/-- UartLaneEndsGoToNextLane: a frame's last sample, the last lane, and a lane that follows. -/
theorem witness_UartLaneEndsGoToNextLane :
    ((uaAt .fit uaW).uaPc = .fit
      ∧ ((stopPositions (frameBits uaW.frame) (parityCells (uaParityOf uaW)) (uaStopOf uaW)).map (sampleTime uaW.t0 uaW.cell)).getLast? = some 75)
    ∧ ((uaAt .nextLane uaW).uaPc = .nextLane ∧ uaW.lanes[uaW.lane + 1]? = none)
    ∧ ({ uaW with lanes := [⟨.rx, 0#8⟩, ⟨.cts, 2#8⟩] } : UaWork).lanes[1]? = some ⟨.cts, 2#8⟩ := by decide

/-- R40, R42: the bits of `PR_MASK` and `PR_DIR` above their fields read as zero; `OW_LINE` reads as written (93 U8). -/
theorem test_read_fields :
    [(0x0A, 0xFFFFFFFFFFFFFFFF#64), (0x0B, 0xFFFFFFFFFFFFFFFF#64), (0x12, 0xFFFFFFFFFFFFFFFF#64)].map
        (fun p => after (act (.writeReg p.1 p.2) State.reset) (fun t => readReg t p.1))
      = [some 0x00000000FFFFFFFF#64, some 0x1#64, some 0xFFFFFFFFFFFFFFFF#64] := by decide

/-- RegisterWriteStoresAndFrames, at the first and the last register; SpecialRegistersAndHoles, at the ends of its ranges. -/
theorem witness_registers :
    (0x08 ∈ storedRegs ∧ 0x3B ∈ storedRegs) ∧ (0x00 ∈ readOnlyRegs ∧ 0x3F ∈ readOnlyRegs)
    ∧ (profileReg 0x40 ∧ profileReg 0x51 ∧ profileReg 0x60 ∧ profileReg 0x71)
    ∧ ∀ n ∈ [0x03, 0x05, 0x52, 0x5F, 0x72, 0x1000], n ∉ storedRegs ∧ n ∉ readOnlyRegs ∧ ¬profileReg n ∧ n ≠ 0x06 ∧ n ≠ 0x07 := by
  unfold profileReg
  decide

/-- HostReadsAndConsumes: a stream with a record, and an empty one. -/
theorem witness_HostReadsAndConsumes :
    (({ State.reset with owOut := { EngineOut.reset with stream := [[0x1#64]] } } : State).out .ow).stream = [0x1#64] :: []
    ∧ (State.reset.out .ow).stream = [] := ⟨rfl, rfl⟩

/-- HostReadsAndConsumes, its clause about the profile image: the last window of a profile, at 0x70 and 0x71. -/
theorem witness_profile_image (p : Profile) :
    [p.a, p.b, p.c, p.d, p.e, p.g, p.h, p.i, p.j][8]? = some p.j
    ∧ 0x40 + 0x20 * (if OwMode.overdrive = .overdrive then 1 else 0) + 2 * 8 + 1 = 0x71 := ⟨rfl, rfl⟩

/-- EnginesDoNotInterfere: a step of the 1-Wire engine, alone and with the JTAG engine elsewhere. -/
theorem witness_EnginesDoNotInterfere :
    (∃ t, engineTurn .ow (owAt .loop owP1) = .next t)
    ∧ sameForEngine .ow (owAt .loop owP1) { owAt .loop owP1 with jtPc := .scan, jtWork := jtW, hostReply := [1#64] } :=
  ⟨⟨_, rfl⟩, rfl, rfl, rfl, rfl, rfl⟩

/-- OnlyAcquisitionWritesSamples: the acquisition's own action while no engine runs. -/
theorem witness_OnlyAcquisitionWritesSamples :
    step { State.reset with inbox := [.capture bufB 1000000#64 0#64] } = .next { State.reset with samples := bufB, sbRate := 1000000#64 } := rfl

/-- ResetStateReadsResetValues: a channel register, a plain one and a hole. -/
theorem witness_ResetStateReadsResetValues : keptByReset 0x12 = false ∧ keptByReset 0x06 = false ∧ keptByReset 0x1000 = false := by decide

/-- OutputsStayLegal, from a RUNNING engine with a symbol in both places. -/
theorem witness_OutputsStayLegal :
    ∃ t, step { owAt .loop owP1 with owOut :=
        ⟨runStatus, 52#64, 1#64, 1#64, [[0x0000000200000012#64, 5#64, 5#64]], [[0x0000000200000012#64, 5#64, 5#64]]⟩ } = .next t
      ∧ ({ owAt .loop owP1 with owOut :=
        ⟨runStatus, 52#64, 1#64, 1#64, [[0x0000000200000012#64, 5#64, 5#64]], [[0x0000000200000012#64, 5#64, 5#64]]⟩ } : State).outputsLegal = true :=
  ⟨_, rfl, by decide⟩

/-- SafeStatesNeverStop: each engine RUNNING in the middle of a run, with a capture to come. -/
theorem witness_SafeStatesNeverStop :
    (owAt .scan owP1).safe = true ∧ (jtAt .shift { jtW with idx := 3 }).safe = true ∧ (uaAt .data uaW).safe = true
    ∧ ({ owAt .scan owP1 with inbox := [.capture bufB 1#64 0#64] } : State).safe = true := by decide

end Sys2Proof.Tests
end

section
/-!
PROOFS. Family 10_state.md: the configuration registers and the state right after reset (10_state.md R57, R70).
-/

namespace Sys2Proof.Machine

/-! ## The configuration registers (10_state.md R57) -/

/-- Replace the configuration registers of all three engines. -/
def setConfigs (c : OwConfig) (j : JtConfig) (u : UaConfig) (s : State) : State :=
  { s with owConfig := c, jtConfig := j, uaConfig := u }

/-- Change the state an answer holds; a fault or a refusal holds none. -/
def onNext (f : State → State) (r : Result) : Result :=
  match r with
  | .next t => .next (f t)
  | .fault x => .fault x
  | .refused x => .refused x

/-- A rule that neither reads nor writes a configuration register: replacing them commutes with it. -/
def IgnoresConfigs (rule : State → Result) : Prop :=
  ∀ (c : OwConfig) (j : JtConfig) (u : UaConfig) (s : State),
    rule (setConfigs c j u s) = onNext (setConfigs c j u) (rule s)

@[simp] theorem setConfigs_owPc (c : OwConfig) (j : JtConfig) (u : UaConfig) (s : State) : (setConfigs c j u s).owPc = s.owPc := rfl
@[simp] theorem setConfigs_jtPc (c : OwConfig) (j : JtConfig) (u : UaConfig) (s : State) : (setConfigs c j u s).jtPc = s.jtPc := rfl
@[simp] theorem setConfigs_uaPc (c : OwConfig) (j : JtConfig) (u : UaConfig) (s : State) : (setConfigs c j u s).uaPc = s.uaPc := rfl

@[simp] theorem setConfigs_out (c : OwConfig) (j : JtConfig) (u : UaConfig) (s : State) (e : EngineId) :
    (setConfigs c j u s).out e = s.out e := by cases e <;> rfl

/-- A rule that branches on a condition treats each branch on its own. -/
theorem ite_eq_onNext {p q : Prop} [Decidable p] [Decidable q] {f : State → State} {a b a' b' : Result} (hpq : p ↔ q)
    (ha : a' = onNext f a) (hb : b' = onNext f b) : (if p then a' else b') = onNext f (if q then a else b) := by
  rw [apply_ite (onNext f), ← ha, ← hb, if_congr hpq rfl rfl]

/-! ### The rules of the 1-Wire engine -/

theorem owInit_ignoresConfigs : IgnoresConfigs owInit := fun _ _ _ _ => by
  simp only [owInit, setConfigs]
  split <;> rfl

theorem owLoop_ignoresConfigs : IgnoresConfigs owLoop := fun _ _ _ _ =>
  ite_eq_onNext Iff.rfl rfl (ite_eq_onNext Iff.rfl rfl rfl)

theorem owScan_ignoresConfigs : IgnoresConfigs owScan := fun _ _ _ _ => by
  simp only [owScan, setConfigs]
  split <;> rfl

theorem owBit_ignoresConfigs (bit : Bool) : IgnoresConfigs (owBit bit) := fun _ _ _ _ =>
  ite_eq_onNext Iff.rfl rfl rfl

/-- The 1-Wire engine works from its latched registers only. -/
theorem owStep_ignoresConfigs : IgnoresConfigs owStep := fun c j u s => by
  unfold owStep
  rw [setConfigs_owPc]
  cases s.owPc with
  | init => exact owInit_ignoresConfigs c j u s
  | loop => exact owLoop_ignoresConfigs c j u s
  | scan => exact owScan_ignoresConfigs c j u s
  | zero => exact owBit_ignoresConfigs false c j u s
  | one => exact owBit_ignoresConfigs true c j u s
  | idle | reset | unknown | progress | done | cancelled => rfl

/-! ### The rules of the JTAG engine -/

theorem jtInit_ignoresConfigs : IgnoresConfigs jtInit := fun _ _ _ _ => by
  simp only [jtInit, setConfigs]
  refine ite_eq_onNext Iff.rfl rfl ?_
  split <;> rfl

theorem jtScan_ignoresConfigs : IgnoresConfigs jtScan := fun _ _ _ _ => by
  simp only [jtScan, setConfigs]
  refine ite_eq_onNext Iff.rfl rfl ?_
  split
  · rfl
  · split <;> rfl

theorem jtStepEdge_ignoresConfigs : IgnoresConfigs jtStepEdge := fun _ _ _ _ => by
  simp only [jtStepEdge, setConfigs]
  split <;> rfl

theorem jtClear_ignoresConfigs : IgnoresConfigs jtClear := fun _ _ _ _ => ite_eq_onNext Iff.rfl rfl rfl

theorem jtShift_ignoresConfigs : IgnoresConfigs jtShift := fun _ _ _ _ => by
  simp only [jtShift, setConfigs]
  refine ite_eq_onNext Iff.rfl ?_ rfl
  split <;> rfl

theorem jtUpdate_ignoresConfigs : IgnoresConfigs jtUpdate := fun _ _ _ _ => ite_eq_onNext Iff.rfl rfl rfl

theorem jtSpan_ignoresConfigs : IgnoresConfigs jtSpan := fun _ _ _ _ => ite_eq_onNext Iff.rfl rfl rfl

/-- The JTAG engine works from its latched registers only. -/
theorem jtStep_ignoresConfigs : IgnoresConfigs jtStep := fun c j u s => by
  unfold jtStep
  rw [setConfigs_jtPc]
  cases s.jtPc with
  | init => exact jtInit_ignoresConfigs c j u s
  | scan => exact jtScan_ignoresConfigs c j u s
  | step => exact jtStepEdge_ignoresConfigs c j u s
  | clear => exact jtClear_ignoresConfigs c j u s
  | shift => exact jtShift_ignoresConfigs c j u s
  | update => exact jtUpdate_ignoresConfigs c j u s
  | span => exact jtSpan_ignoresConfigs c j u s
  | idle | progress | done | cancelled => rfl

/-! ### The rules of the UART engine -/

theorem uaLane_ignoresConfigs : IgnoresConfigs uaLane := fun _ _ _ _ =>
  ite_eq_onNext Iff.rfl rfl (ite_eq_onNext Iff.rfl rfl rfl)

theorem uaStartBit_ignoresConfigs : IgnoresConfigs uaStartBit := fun _ _ _ _ => by
  simp only [uaStartBit, setConfigs]
  split
  · rfl
  · split <;> rfl

theorem uaCell_ignoresConfigs : IgnoresConfigs uaCell := fun _ _ _ _ => by
  simp only [uaCell, setConfigs]
  refine ite_eq_onNext Iff.rfl rfl ?_
  split
  · rfl
  · split <;> rfl

theorem uaFit_ignoresConfigs : IgnoresConfigs uaFit := fun _ _ _ _ => ite_eq_onNext Iff.rfl rfl rfl

theorem uaData_ignoresConfigs : IgnoresConfigs uaData := fun _ _ _ _ => by
  simp only [uaData, setConfigs]
  split
  · rfl
  · split <;> rfl

theorem uaParity_ignoresConfigs : IgnoresConfigs uaParity := fun _ _ _ _ => by
  simp only [uaParity, setConfigs]
  split
  · rfl
  · split
    · rfl
    · split <;> rfl

theorem uaStop_ignoresConfigs : IgnoresConfigs uaStop := fun _ _ _ _ => by
  simp only [uaStop, setConfigs]
  split
  · rfl
  · split <;> rfl

theorem uaEmit_ignoresConfigs : IgnoresConfigs uaEmit := fun _ _ _ _ => by
  simp only [uaEmit, setConfigs]
  split
  · rfl
  · split <;> rfl

theorem uaHs_ignoresConfigs : IgnoresConfigs uaHs := fun _ _ _ _ => by
  simp only [uaHs, setConfigs]
  refine ite_eq_onNext Iff.rfl rfl ?_
  split
  · rfl
  · split <;> rfl

theorem uaHsEvent_ignoresConfigs : IgnoresConfigs uaHsEvent := fun _ _ _ _ => by
  simp only [uaHsEvent, setConfigs]
  split <;> rfl

theorem uaProgress_ignoresConfigs : IgnoresConfigs uaProgress := fun _ _ _ _ => by
  simp only [uaProgress, setConfigs]
  split <;> rfl

theorem uaNextLane_ignoresConfigs : IgnoresConfigs uaNextLane := fun _ _ _ _ => by
  simp only [uaNextLane, setConfigs]
  split <;> rfl

/-- The UART engine works from its latched registers only. -/
theorem uaStep_ignoresConfigs : IgnoresConfigs uaStep := fun c j u s => by
  unfold uaStep
  rw [setConfigs_uaPc]
  cases s.uaPc with
  | lane => exact uaLane_ignoresConfigs c j u s
  | startBit => exact uaStartBit_ignoresConfigs c j u s
  | cell => exact uaCell_ignoresConfigs c j u s
  | fit => exact uaFit_ignoresConfigs c j u s
  | data => exact uaData_ignoresConfigs c j u s
  | parity => exact uaParity_ignoresConfigs c j u s
  | stop => exact uaStop_ignoresConfigs c j u s
  | emit => exact uaEmit_ignoresConfigs c j u s
  | hs => exact uaHs_ignoresConfigs c j u s
  | hsEvent => exact uaHsEvent_ignoresConfigs c j u s
  | progress => exact uaProgress_ignoresConfigs c j u s
  | nextLane => exact uaNextLane_ignoresConfigs c j u s
  | idle | resume | done | cancelled => rfl

/-! ### The turn of an engine -/

/-- The turn of an engine, RUNNING or not, neither reads nor writes a configuration register. -/
theorem engineTurn_ignoresConfigs (e : EngineId) : IgnoresConfigs (engineTurn e) := fun c j u s => by
  by_cases h : (s.out e).status.state = .running
  · have h' : ((setConfigs c j u s).out e).status.state = .running := by rwa [setConfigs_out]
    cases e with
    | ow => rw [engineTurn_ow h, engineTurn_ow h']; exact owStep_ignoresConfigs c j u { s with cur := .ow }
    | jtag => rw [engineTurn_jtag h, engineTurn_jtag h']; exact jtStep_ignoresConfigs c j u { s with cur := .jtag }
    | uart => rw [engineTurn_uart h, engineTurn_uart h']; exact uaStep_ignoresConfigs c j u { s with cur := .uart }
  · rw [engineTurn_idle h, engineTurn_idle (by rwa [setConfigs_out])]
    rfl

/-- Settles O53: each rule of each engine commutes with replacing the configuration registers, and so does the engine's turn. -/
theorem runningEngineIgnoresConfiguration : Obligations.RunningEngineIgnoresConfiguration :=
  fun e s c j u => engineTurn_ignoresConfigs e c j u s

/-! ## The state right after reset (10_state.md R70) -/

/-- The register map ends at 0x71; every number above it is a hole (10_state.md R51). -/
theorem regOf_eq_none_of_gt {n : Nat} (h : 0x71 < n) : regOf n = none := by
  unfold regOf
  split
  -- the named registers are all at 0x3F or below; the last branch holds the two profile images
  case h_48 => rw [if_neg (by omega), if_neg (by omega)]
  all_goals omega

/-- Inside the register map, a number that reset touches reads its reset value. -/
theorem readReg_reset_of_le : ∀ n ≤ 0x71, keptByReset n = false → readReg State.reset n = resetWord n := by decide

/-- Above the register map every register is a hole, and no channel-index register is there. -/
theorem readReg_reset_of_gt {n : Nat} (h : 0x71 < n) : readReg State.reset n = resetWord n := by
  have hole : readReg State.reset n = 0#64 := by simp only [readReg, regOf_eq_none_of_gt h]
  have channels_le : ∀ m ∈ channelRegs, m ≤ 0x71 := by decide
  have notChannel : n ∉ channelRegs := fun hn => by have := channels_le n hn; omega
  simp [hole, resetWord, notChannel]

@[simp] theorem out_reset (e : EngineId) : State.reset.out e = EngineOut.reset := by cases e <;> rfl

/-- Nothing waits and no engine runs right after reset, so a step answers the same state. -/
theorem step_reset : step State.reset = .next State.reset := rfl

/-- Settles O56: the numbers inside the register map one by one, those above it as holes. -/
theorem resetStateReadsResetValues : Obligations.ResetStateReadsResetValues := by
  refine ⟨fun n hn => ?_, out_reset, rfl, step_reset⟩
  by_cases h : n ≤ 0x71
  · exact readReg_reset_of_le n h hn
  · exact readReg_reset_of_gt (by omega)

/-- An output side at its reset value is legal for every engine: it holds no record and its counters are 0. -/
theorem outputLegal_reset (e : EngineId) : outputLegal e EngineOut.reset = true := by cases e <;> decide

theorem outputsLegal_reset : State.reset.outputsLegal = true := by
  have h : ∀ e, outputLegal e (State.reset.out e) = true := fun e => by rw [out_reset, outputLegal_reset]
  simp only [State.outputsLegal, Bool.and_eq_true]
  exact ⟨⟨h .ow, h .jtag⟩, h .uart⟩

/-- No engine is RUNNING right after reset. -/
theorem running_reset (e : EngineId) : State.reset.running e = false := by rw [State.running, out_reset]; rfl

/-- The empty capture is legal, nothing waits, and an engine that is not RUNNING is ready as it stands. -/
theorem safe_reset : State.reset.safe = true := by
  have hcapture : captureLegal State.reset.samples = true := rfl
  have how : owReady State.reset = true := by simp [owReady, running_reset]
  have hjt : jtReady State.reset = true := by simp [jtReady, running_reset]
  have hua : uaReady State.reset = true := by simp [uaReady, running_reset]
  simp only [State.safe, hcapture, how, hjt, hua]
  rfl

/-- Settles O57: both invariants hold of the reset state. -/
theorem resetStateIsSafe : Obligations.ResetStateIsSafe := ⟨outputsLegal_reset, safe_reset⟩

end Sys2Proof.Machine
end

section
/-!
PROOFS. Family 20_memory.md, the byte order of a serialisation: words, records and sample-memory images read back (20_memory.md R84).
-/

namespace Sys2Proof
open Machine

/-- A word is built of its bytes: bit `i` is bit `i % 8` of byte `i / 8` (20_memory.md R84). -/
theorem bytesWord_getLsbD (bs : List Byte) {i : Nat} (hi : i < 64) :
    (bytesWord bs).getLsbD i = (bs.getD (i / 8) 0#8).getLsbD (i % 8) := by
  induction bs generalizing i with
  | nil => simp [bytesWord]
  | cons b bs ih =>
    have hcons : bytesWord (b :: bs) = (bytesWord bs <<< 8) ||| b.setWidth 64 := rfl
    rw [hcons, BitVec.getLsbD_or, BitVec.getLsbD_shiftLeft, BitVec.getLsbD_setWidth]
    by_cases h : i < 8
    · simp [h, hi, Nat.div_eq_of_lt h, Nat.mod_eq_of_lt h]
    · obtain ⟨j, rfl⟩ : ∃ j, i = j + 8 := ⟨i - 8, by omega⟩
      rw [BitVec.getLsbD_of_ge b (j + 8) (by omega)]
      simp [hi, ih (show j < 64 by omega)]

/-- A quantity of at most 64 bits reads back from enough of its bytes. -/
theorem bytesWord_leBytes {width n : Nat} (v : BitVec width) (hn : width ≤ 8 * n) :
    bytesWord (leBytes n v) = v.setWidth 64 := by
  refine BitVec.eq_of_getLsbD_eq fun i hi => ?_
  rw [bytesWord_getLsbD _ hi, List.getD_eq_getElem?_getD, BitVec.getLsbD_setWidth]
  by_cases h : i / 8 < n
  · rw [leBytes_getElem? v h]
    simp [hi, Nat.mod_lt, Nat.div_add_mod]
  · rw [List.getElem?_eq_none (by rw [leBytes_length]; omega), BitVec.getLsbD_of_ge v i (by omega)]
    simp

@[simp] theorem wordBytes_length (w : Word) : (wordBytes w).length = 8 := leBytes_length 8 w

/-- A word reads back from its eight bytes (20_memory.md R84). -/
@[simp] theorem bytesWord_wordBytes (w : Word) : bytesWord (wordBytes w) = w := by
  rw [wordBytes, bytesWord_leBytes w (by omega), BitVec.setWidth_eq]

/-! ### Records -/

@[simp] theorem recordBytes_nil : recordBytes [] = [] := rfl

/-- A serialised record starts with its first word. -/
@[simp] theorem recordBytes_cons (w : Word) (ws : Record) : recordBytes (w :: ws) = wordBytes w ++ recordBytes ws := rfl

theorem recordBytes_length (ws : Record) : (recordBytes ws).length = 8 * ws.length := by
  induction ws with
  | nil => rfl
  | cons w ws ih => rw [recordBytes_cons, List.length_append, wordBytes_length, ih, List.length_cons]; omega

/-- The words of a serialised record read back, with what follows them. -/
theorem takeWords_recordBytes (ws : Record) (rest : List Byte) :
    takeWords ws.length (recordBytes ws ++ rest) = some (ws, rest) := by
  induction ws with
  | nil => rfl
  | cons w ws ih =>
    rw [List.length_cons, recordBytes_cons, List.append_assoc, takeWords, if_neg (by simp),
      List.drop_left' (wordBytes_length w), ih]
    simp only [List.take_left' (wordBytes_length w), bytesWord_wordBytes]

/-- A record that decodes has a header whose `LEN` counts its body words (30_encoding.md R114). -/
theorem decodeRecord_ok {ws : Record} {i : Instr} (h : decodeRecord ws = .ok i) :
    ∃ w body, ws = w :: body ∧ (Header.ofWord w).len = lenField body.length := by
  cases ws with
  | nil => cases h
  | cons w body =>
    refine ⟨w, body, rfl, ?_⟩
    by_contra hlen
    simp only [decodeRecord, if_neg hlen] at h
    cases h

/-- `LEN` holds the number of body words as long as 32 bits can count them. -/
theorem lenField_toNat {n : Nat} (h : n < 2 ^ 32) : (lenField n).toNat = n := by
  rw [lenField, if_pos h, BitVec.toNat_ofNat, Nat.mod_eq_of_lt h]

/-- Settles O6: the header word is read first, and its `LEN` says how many of the words after it are the record's. -/
theorem serialisedRecordReadsBack : Obligations.SerialisedRecordReadsBack := by
  intro ws i rest hdec hlen
  obtain ⟨w, body, rfl, hw⟩ := decodeRecord_ok hdec
  have hbody : (Header.ofWord w).len.toNat = body.length := by
    rw [hw, lenField_toNat (by simpa using hlen)]
  have hheader : takeWords 1 (recordBytes (w :: body) ++ rest) = some ([w], recordBytes body ++ rest) := by
    simpa using takeWords_recordBytes [w] (recordBytes body ++ rest)
  have hcount : min body.length ((recordBytes body ++ rest).length + 1) = body.length := by
    rw [List.length_append, recordBytes_length]
    omega
  simp only [decodeBytes, hheader, List.headD_cons, hbody, hcount, takeWords_recordBytes, List.singleton_append, hdec]

/-! ### Sample-memory images -/

/-- An entry reads back from its twelve bytes (20_memory.md R84, log 29). -/
theorem bytesSample_sampleBytes (x : Sample) (rest : List Byte) : bytesSample (sampleBytes x ++ rest) = x := by
  simp only [bytesSample, sampleBytes, List.append_assoc, List.take_left' (wordBytes_length x.ts),
    List.drop_left' (wordBytes_length x.ts), List.take_left' (leBytes_length 4 x.val), bytesWord_wordBytes,
    bytesWord_leBytes x.val (show 32 ≤ 8 * 4 by omega), BitVec.setWidth_setWidth_of_le x.val (show 32 ≤ 64 by omega),
    BitVec.setWidth_eq]

/-- The entries of an image read back, with what follows them. -/
theorem takeSamples_memoryBytes (m : Memory) (rest : List Byte) :
    takeSamples m.length (memoryBytes m ++ rest) = some (m, rest) := by
  induction m with
  | nil => rfl
  | cons x m ih =>
    rw [List.length_cons, memoryBytes_cons, List.append_assoc, takeSamples, if_neg (by simp),
      List.drop_left' (sampleBytes_length x), ih, bytesSample_sampleBytes]

/-- An image has twelve bytes for each entry (log 29). -/
theorem memoryBytes_length (m : Memory) : (memoryBytes m).length = 12 * m.length := by
  induction m with
  | nil => rfl
  | cons x m ih => rw [memoryBytes_cons, List.length_append, sampleBytes_length, ih, List.length_cons]; omega

/-- The bytes of entry `i` of an image start at byte `12 * i` (log 29). -/
theorem memoryBytes_getElem? {m : Memory} {i k : Nat} {x : Sample} (hx : m[i]? = some x) (hk : k < 12) :
    (memoryBytes m)[12 * i + k]? = (sampleBytes x)[k]? := by
  induction m generalizing i with
  | nil => simp at hx
  | cons y m ih =>
    rw [memoryBytes_cons]
    cases i with
    | zero =>
      obtain rfl : y = x := by simpa using hx
      rw [Nat.mul_zero, Nat.zero_add, List.getElem?_append_left (by rwa [sampleBytes_length])]
    | succ i =>
      rw [List.getElem?_append_right (by rw [sampleBytes_length]; omega), sampleBytes_length,
        show 12 * (i + 1) + k - 12 = 12 * i + k by omega]
      exact ih (by simpa using hx)

/-- The timestamp's bytes come first in an entry. -/
theorem sampleBytes_ts (x : Sample) {k : Nat} (hk : k < 8) :
    (sampleBytes x)[k]? = some (x.ts.extractLsb' (8 * k) 8) := by
  rw [sampleBytes, List.getElem?_append_left (by rwa [wordBytes_length])]
  exact leBytes_getElem? x.ts hk

/-- The value's bytes follow the timestamp's. -/
theorem sampleBytes_val (x : Sample) {k : Nat} (hk : k < 4) :
    (sampleBytes x)[8 + k]? = some (x.val.extractLsb' (8 * k) 8) := by
  rw [sampleBytes, List.getElem?_append_right (by rw [wordBytes_length]; omega), wordBytes_length, Nat.add_sub_cancel_left]
  exact leBytes_getElem? x.val hk

/-- Settles O60: entry by entry, each read back from its twelve bytes, and byte by byte inside an entry. -/
theorem memoryImageIsLittleEndian : Obligations.MemoryImageIsLittleEndian := by
  refine ⟨takeSamples_memoryBytes, memoryBytes_length, fun m i k x hx => ⟨fun hk => ?_, fun hk => ?_⟩,
    fun w k hk => leBytes_getElem? w hk⟩
  · rw [memoryBytes_getElem? hx (by omega), sampleBytes_ts x hk]
  · rw [Nat.add_assoc, memoryBytes_getElem? hx (by omega), sampleBytes_val x hk]

end Sys2Proof
end

section
/-!
PROOFS. Family 20_memory.md, the order of steps: what happens with no word waiting, and what the step of an engine writes and reads
(20_memory.md R92, 46_host_commands.md R380).
-/

namespace Sys2Proof.Machine

/-! ## The step without a word waiting (20_memory.md R92, 46_host_commands.md R380) -/

theorem step_of_ops_nil {s : State} (h : s.ops = []) : step s = betweenWords s := by simp only [step, fetch, h]

theorem mem_runningEngines {s : State} {e : EngineId} : e ∈ runningEngines s ↔ (s.out e).status.state = .running := by
  have hall : e ∈ [EngineId.ow, .jtag, .uart] := by cases e <;> decide
  simp only [runningEngines, List.mem_filter, hall, true_and, State.running, beq_iff_eq]

theorem runningEngines_eq_nil {s : State} : runningEngines s = [] ↔ ∀ e, (s.out e).status.state ≠ .running := by
  simp only [List.eq_nil_iff_forall_not_mem, mem_runningEngines, ne_eq]

/-- The list of the RUNNING engines names each engine at most once. -/
theorem runningEngines_nodup (s : State) : (runningEngines s).Nodup :=
  List.Nodup.filter _ (by decide : [EngineId.ow, .jtag, .uart].Nodup)

theorem runningEngines_eq_singleton {s : State} {e : EngineId} (he : (s.out e).status.state = .running)
    (hother : ∀ f, f ≠ e → (s.out f).status.state ≠ .running) : runningEngines s = [e] := by
  have honly : ∀ f ∈ runningEngines s, f = e := fun f hf =>
    by_contra fun hne => hother f hne (mem_runningEngines.1 hf)
  have hrep := List.eq_replicate_of_mem honly
  have hpos : 0 < (runningEngines s).length := List.length_pos_of_mem (mem_runningEngines.2 he)
  have hle : (runningEngines s).length ≤ 1 := List.nodup_replicate.1 (hrep ▸ runningEngines_nodup s)
  rw [hrep, show (runningEngines s).length = 1 by omega]
  rfl

/-- Settles O2: with no word waiting a step is `betweenWords`, whose branch the inbox and the list of RUNNING engines choose. -/
theorem stepWithoutWordActsOrTurns : Obligations.StepWithoutWordActsOrTurns := by
  intro s hops
  rw [step_of_ops_nil hops]
  refine ⟨fun a rest hin => ?_, fun e hin he hother => ?_, fun hin hnone => ?_⟩
  · simp only [betweenWords, hin]
  · simp only [betweenWords, hin, runningEngines_eq_singleton he hother]
  · simp only [betweenWords, hin, runningEngines_eq_nil.2 hnone]

/-! ## What a step of an engine can write and read (20_memory.md R92) -/

/-- What `engineTurn` writes: the engine's own working registers and next step, the executing engine, and waiting words. -/
theorem engineTurn_writes {e : EngineId} {s t : State} (h : engineTurn e s = .next t) :
    othersKept e s t ∧ hostSideKept s t ∧ (∀ f, t.out f = s.out f) ∧ ∃ formed, t.ops = formed ++ s.ops := by
  by_cases hr : (s.out e).status.state = .running
  · cases e with
    | ow =>
      rw [engineTurn_ow hr] at h
      obtain ⟨w, pc, formed, rfl⟩ := owStep_writes h
      exact ⟨by simp [othersKept], by simp [hostSideKept], fun f => by cases f <;> rfl, formed, rfl⟩
    | jtag =>
      rw [engineTurn_jtag hr] at h
      obtain ⟨w, pc, formed, rfl⟩ := jtStep_writes h
      exact ⟨by simp [othersKept], by simp [hostSideKept], fun f => by cases f <;> rfl, formed, rfl⟩
    | uart =>
      rw [engineTurn_uart hr] at h
      obtain ⟨w, pc, formed, rfl⟩ := uaStep_writes h
      exact ⟨by simp [othersKept], by simp [hostSideKept], fun f => by cases f <;> rfl, formed, rfl⟩
  · rw [engineTurn_idle hr] at h
    injection h with h
    subst h
    exact ⟨by simp [othersKept], by simp [hostSideKept], fun _ => rfl, [], rfl⟩

/-- A change of the state that a rule does not see and that the rule's own writes survive. -/
def Commutes (f : State → State) (rule : State → Result) : Prop := ∀ s, rule (f s) = onNext f (rule s)

/-- A state in which the 1-Wire engine stands as in `s`, with the same capture, and all else is as in `base`: the words waiting
in `s` come before those waiting in `base`. -/
def owOnto (base s : State) : State :=
  { base with
    samples := s.samples, sbRate := s.sbRate, ops := s.ops ++ base.ops
    owWork := s.owWork, owOut := s.owOut, owPc := s.owPc }

/-- As `owOnto`, for the JTAG engine. -/
def jtOnto (base s : State) : State :=
  { base with
    samples := s.samples, sbRate := s.sbRate, ops := s.ops ++ base.ops
    jtWork := s.jtWork, jtOut := s.jtOut, jtPc := s.jtPc }

/-- As `owOnto`, for the UART engine. -/
def uaOnto (base s : State) : State :=
  { base with
    samples := s.samples, sbRate := s.sbRate, ops := s.ops ++ base.ops
    uaWork := s.uaWork, uaOut := s.uaOut, uaPc := s.uaPc }

@[simp] theorem owOnto_owPc (base s : State) : (owOnto base s).owPc = s.owPc := rfl
@[simp] theorem jtOnto_jtPc (base s : State) : (jtOnto base s).jtPc = s.jtPc := rfl
@[simp] theorem uaOnto_uaPc (base s : State) : (uaOnto base s).uaPc = s.uaPc := rfl

/-- The 1-Wire engine's rules see nothing of another engine and nothing of the host's side. -/
theorem owStep_onto (base : State) : Commutes (owOnto base) owStep := fun s => by
  unfold owStep
  rw [owOnto_owPc]
  cases s.owPc with
  | init => simp only [owInit, owOnto]; split <;> rfl
  | loop => exact ite_eq_onNext Iff.rfl rfl (ite_eq_onNext Iff.rfl rfl rfl)
  | scan => simp only [owScan, owOnto]; split <;> rfl
  | zero => exact ite_eq_onNext Iff.rfl rfl rfl
  | one => exact ite_eq_onNext Iff.rfl rfl rfl
  | idle | reset | unknown | progress | done | cancelled => rfl

/-- Words formed on top of `jtOnto` are formed below it. -/
theorem form_jtOnto (is : List Instr) (base s : State) : form is (jtOnto base s) = jtOnto base (form is s) := by
  simp only [form, jtOnto, List.append_assoc]

/-- The JTAG engine's rules see nothing of another engine and nothing of the host's side. -/
theorem jtStep_onto (base : State) : Commutes (jtOnto base) jtStep := fun s => by
  unfold jtStep
  rw [jtOnto_jtPc]
  cases s.jtPc with
  | init =>
    refine ite_eq_onNext Iff.rfl rfl ?_
    simp only [jtOnto]
    split <;> rfl
  | scan =>
    refine ite_eq_onNext Iff.rfl rfl ?_
    simp only [jtOnto]
    split
    · rfl
    · split <;> rfl
  | step => simp only [jtStepEdge, jtOnto]; split <;> rfl
  | clear => exact ite_eq_onNext Iff.rfl rfl rfl
  | shift =>
    refine ite_eq_onNext Iff.rfl ?_ rfl
    simp only [jtOnto]
    split <;> rfl
  | update => exact ite_eq_onNext Iff.rfl (congrArg _ (form_jtOnto _ base { s with jtPc := .span })) rfl
  | span => exact ite_eq_onNext Iff.rfl rfl rfl
  | idle | progress | done | cancelled => rfl

/-- The UART engine's rules see nothing of another engine and nothing of the host's side. -/
theorem uaStep_onto (base : State) : Commutes (uaOnto base) uaStep := fun s => by
  unfold uaStep
  rw [uaOnto_uaPc]
  cases s.uaPc with
  | lane => exact ite_eq_onNext Iff.rfl rfl (ite_eq_onNext Iff.rfl rfl rfl)
  | startBit =>
    simp only [uaStartBit, uaOnto]
    split
    · rfl
    · split <;> rfl
  | cell =>
    refine ite_eq_onNext Iff.rfl rfl ?_
    simp only [uaOnto]
    split
    · rfl
    · split <;> rfl
  | fit => exact ite_eq_onNext Iff.rfl rfl rfl
  | data =>
    simp only [uaData, uaOnto]
    split
    · rfl
    · split <;> rfl
  | parity =>
    simp only [uaParity, uaOnto]
    split
    · rfl
    · split
      · rfl
      · split <;> rfl
  | stop =>
    simp only [uaStop, uaOnto]
    split
    · rfl
    · split <;> rfl
  | emit =>
    simp only [uaEmit, uaOnto]
    split
    · rfl
    · split <;> rfl
  | hs =>
    refine ite_eq_onNext Iff.rfl rfl ?_
    simp only [uaOnto]
    split
    · rfl
    · split <;> rfl
  | hsEvent => simp only [uaHsEvent, uaOnto]; split <;> rfl
  | progress => simp only [uaProgress, uaOnto]; split <;> rfl
  | nextLane => simp only [uaNextLane, uaOnto]; split <;> rfl
  | idle | resume | done | cancelled => rfl

/-- `base` with what the turn of engine `e` can read or write taken from `s`. -/
def onto (e : EngineId) (base s : State) : State :=
  match e with
  | .ow => owOnto base s
  | .jtag => jtOnto base s
  | .uart => uaOnto base s

@[simp] theorem onto_out (e : EngineId) (base s : State) : (onto e base s).out e = s.out e := by cases e <;> rfl

@[simp] theorem onto_ops (e : EngineId) (base s : State) : (onto e base s).ops = s.ops ++ base.ops := by cases e <;> rfl

/-- The turn of a RUNNING engine sees nothing of another engine and nothing of the host's side. -/
theorem engineTurn_onto {e : EngineId} {s : State} (h : (s.out e).status.state = .running) (base : State) :
    engineTurn e (onto e base s) = onNext (onto e { base with cur := e }) (engineTurn e s) := by
  have h' : ((onto e base s).out e).status.state = .running := by rwa [onto_out]
  cases e with
  | ow => rw [engineTurn_ow h, engineTurn_ow h']; exact owStep_onto { base with cur := .ow } { s with cur := .ow }
  | jtag => rw [engineTurn_jtag h, engineTurn_jtag h']; exact jtStep_onto { base with cur := .jtag } { s with cur := .jtag }
  | uart => rw [engineTurn_uart h, engineTurn_uart h']; exact uaStep_onto { base with cur := .uart } { s with cur := .uart }

/-- Two states that took the same engine agree for that engine. -/
theorem sameForEngine_onto (e : EngineId) (base base' s : State) : sameForEngine e (onto e base s) (onto e base' s) := by
  cases e <;> exact ⟨rfl, rfl, rfl, rfl, rfl⟩

/-- A state is unchanged when it takes the engine from a state that agrees with it for that engine, with no word waiting. -/
theorem onto_of_sameForEngine {e : EngineId} {s s' : State} (h : sameForEngine e s s') : onto e s' { s with ops := [] } = s' := by
  obtain ⟨hsamples, hrate, hout, hown⟩ := h
  cases e with
  | ow =>
    obtain ⟨hwork, hpc⟩ := hown
    simp only [State.out] at hout
    simp only [onto, owOnto, List.nil_append, ← hsamples, ← hrate, ← hout, ← hwork, ← hpc]
  | jtag =>
    obtain ⟨hwork, hpc⟩ := hown
    simp only [State.out] at hout
    simp only [onto, jtOnto, List.nil_append, ← hsamples, ← hrate, ← hout, ← hwork, ← hpc]
  | uart =>
    obtain ⟨hwork, hpc⟩ := hown
    simp only [State.out] at hout
    simp only [onto, uaOnto, List.nil_append, ← hsamples, ← hrate, ← hout, ← hwork, ← hpc]

theorem sameForEngine_refl (e : EngineId) (s : State) : sameForEngine e s s := by cases e <;> exact ⟨rfl, rfl, rfl, rfl, rfl⟩

/-- A RUNNING engine's turn, taken apart: the turn in the state with no word waiting, put onto the state. -/
theorem engineTurn_eq_onto {e : EngineId} {s s' : State} (hsame : sameForEngine e s s') (hr : (s.out e).status.state = .running) :
    engineTurn e s' = onNext (onto e { s' with cur := e }) (engineTurn e { s with ops := [] }) := by
  conv_lhs => rw [← onto_of_sameForEngine hsame]
  exact engineTurn_onto (by cases e <;> exact hr) s'

/-- In two states that agree for a RUNNING engine its turn forms the same words and ends in states that agree for it. -/
theorem engineTurn_agrees {e : EngineId} {s s' t : State} (hsame : sameForEngine e s s')
    (hr : (s.out e).status.state = .running) (h : engineTurn e s = .next t) :
    ∃ t' formed, engineTurn e s' = .next t' ∧ sameForEngine e t t' ∧ t.ops = formed ++ s.ops ∧ t'.ops = formed ++ s'.ops := by
  rw [engineTurn_eq_onto (sameForEngine_refl e s) hr] at h
  rw [engineTurn_eq_onto hsame hr]
  cases hturn : engineTurn e { s with ops := [] } with
  | next u =>
    rw [hturn] at h
    injection h with h
    subst h
    exact ⟨_, u.ops, rfl, sameForEngine_onto e _ _ u, onto_ops e _ u, onto_ops e _ u⟩
  | fault x => rw [hturn] at h; cases h
  | refused x => rw [hturn] at h; cases h

/-- Settles O54: what an engine writes is said by `engineTurn_writes`; it reads nothing of the rest because its turn commutes with
putting the engine onto another state. -/
theorem enginesDoNotInterfere : Obligations.EnginesDoNotInterfere := by
  refine ⟨fun e s t h => ?_, fun e s s' t hsame h => ?_⟩
  · obtain ⟨hothers, hhost, hout, hops⟩ := engineTurn_writes h
    exact ⟨hothers, hhost, hout e, hops⟩
  · by_cases hr : (s.out e).status.state = .running
    · exact engineTurn_agrees hsame hr h
    · have ⟨_, _, hout, _⟩ := hsame
      rw [engineTurn_idle hr] at h
      injection h with h
      subst h
      exact ⟨s', [], engineTurn_idle (by rwa [hout]), hsame, rfl, rfl⟩

end Sys2Proof.Machine
end

section
/-!
PROOFS. Family 20_memory.md, the sample memory: what a step can do to the state, and that only the acquisition writes a sample
(20_memory.md R86, 10_state.md R58).
-/

namespace Sys2Proof.Machine

/-! ## What an operation carried out can do -/

/-- The effects of a well-formed operation: a START, one engine's output side, the TAP controller, the 1-Wire handler, the answer of
a scanner command, or a block reset. No output side becomes RUNNING but by a START. -/
inductive ExecEffect (s : State) : Result → Prop
  | startOw : ExecEffect s (startEngine .ow (owConfigOk s) owStart s)
  | startJtag : ExecEffect s (startEngine .jtag (jtConfigOk s) jtStart s)
  | startUart : ExecEffect s (startEngine .uart (uaConfigOk s) uaStart s)
  | output (e : EngineId) (o : EngineOut) (h : o.status.state = .running → (s.out e).status.state = .running) :
      ExecEffect s (.next (s.setOut e o))
  | tap (t : TapState) : ExecEffect s (.next (tapMove t s))
  | handler (pc : OwPc) : ExecEffect s (.next (owGoto pc s))
  | answer (r : Option Hit) : ExecEffect s (.next (storeAnswer r s))
  | blockReset : ExecEffect s (.next (blockReset s))

/-- A symbol writes the output side of its engine and not the status (45_emitter.md R342). -/
theorem appendSymbol_effect (e : EngineId) (r : Record) (weight : Nat) (s : State) :
    ExecEffect s (.next (appendSymbol e r weight s)) := .output e _ id

/-- CANCEL raises a pending bit or does nothing (46_host_commands.md R387). -/
theorem cancelEngine_effect (e : EngineId) (s : State) : ExecEffect s (.next (cancelEngine e s)) := by
  rcases cancelEngine_cases e s with ⟨hr, heq⟩ | ⟨-, heq⟩
  · rw [heq]
    exact .output e _ fun _ => hr
  · have hkeep : ExecEffect s (.next (s.setOut e (s.out e))) := .output e _ id
    rw [setOut_out] at hkeep
    rwa [heq]

/-- The codes of a well-formed END: the engine is RUNNING no more (45_emitter.md R349). -/
theorem endRun_codes {st code : Byte} {sym err : Word} (h : (Instr.endRun st code sym err).wf = true) :
    ∃ rs fc, RunState.ofCode st = some rs ∧ FailCode.ofCode code = some fc ∧ rs ≠ .running := by
  simp only [Instr.wf, finalStateLegal, endCodeLegal, Bool.and_eq_true, Bool.or_eq_true, beq_iff_eq] at h
  obtain ⟨(rfl | rfl) | rfl, rfl | rfl⟩ := h <;> exact ⟨_, _, rfl, rfl, by decide⟩

/-- END ends the run of the executing engine (45_emitter.md R349). -/
theorem execEndRun_effect {st code : Byte} {sym err : Word} (h : (Instr.endRun st code sym err).wf = true) (s : State) :
    ExecEffect s (execEndRun st code sym err s) := by
  obtain ⟨rs, fc, hst, hcode, hne⟩ := endRun_codes h
  simp only [execEndRun, hst, hcode, takeEnd_eq]
  exact .output s.cur _ fun hr => absurd hr hne

/-- What a well-formed operation does when it is carried out. -/
theorem exec_effect {i : Instr} (h : i.wf = true) (s : State) : ExecEffect s (exec i s) := by
  cases i with
  | startOw => exact .startOw
  | startJtag => exact .startJtag
  | startUart => exact .startUart
  | cancelOw => exact cancelEngine_effect .ow s
  | cancelJtag => exact cancelEngine_effect .jtag s
  | cancelUart => exact cancelEngine_effect .uart s
  | valueAt | findEdge => exact .answer _
  | reset => exact .blockReset
  | clear chan => exact .output s.cur _ id
  | progress percent =>
    simp only [exec, execProgress, emitProgress_eq]
    exact .output s.cur _ id
  | endRun => exact execEndRun_effect h s
  | owReset | owByte | owBusError => exact appendSymbol_effect .ow _ _ s
  | jtState | jtShiftTdi | jtShiftTdo => exact appendSymbol_effect .jtag _ _ s
  | uaDataRx | uaDataTx | uaEvent => exact appendSymbol_effect .uart _ _ s
  | clsUnknown | clsOne | clsZero | clsReset => exact .handler _
  | tapTestLogicReset0 | tapTestLogicReset1 | tapRunTestIdle0 | tapRunTestIdle1 | tapSelectDr0 | tapSelectDr1
  | tapCaptureDr0 | tapCaptureDr1 | tapShiftDr0 | tapShiftDr1 | tapExit1Dr0 | tapExit1Dr1 | tapPauseDr0 | tapPauseDr1
  | tapExit2Dr0 | tapExit2Dr1 | tapUpdateDr0 | tapUpdateDr1 | tapSelectIr0 | tapSelectIr1 | tapCaptureIr0 | tapCaptureIr1
  | tapShiftIr0 | tapShiftIr1 | tapExit1Ir0 | tapExit1Ir1 | tapPauseIr0 | tapPauseIr1 | tapExit2Ir0 | tapExit2Ir1
  | tapUpdateIr0 | tapUpdateIr1 => exact .tap _

/-- The START step of the 1-Wire engine writes its working registers, its next step and waiting words (42_onewire.md R190). -/
theorem owStart_writes {s t : State} (h : owStart s = .next t) :
    ∃ w pc formed, t = { s with owWork := w, owPc := pc, ops := formed ++ s.ops } := by
  simp only [owStart] at h
  split_ifs at h
  · split at h
    · injection h with h
      exact ⟨_, _, _, h.symm⟩
    · cases h
  · injection h with h
    exact ⟨_, _, _, h.symm⟩

/-- The START step of the JTAG engine writes its working registers, its next step and waiting words (43_jtag_tap.md R250). -/
theorem jtStart_writes {s t : State} (h : jtStart s = .next t) :
    ∃ w pc formed, t = { s with jtWork := w, jtPc := pc, ops := formed ++ s.ops } := by
  injection h with h
  exact ⟨_, _, _, h.symm⟩

/-- The START step of the UART engine writes its working registers, its next step and waiting words (44_uart.md R290). -/
theorem uaStart_writes {s t : State} (h : uaStart s = .next t) :
    ∃ w pc formed, t = { s with uaWork := w, uaPc := pc, ops := formed ++ s.ops } := by
  simp only [uaStart] at h
  split at h
  · injection h with h
    exact ⟨_, _, _, h.symm⟩
  · split_ifs at h
    · injection h with h
      exact ⟨_, _, _, h.symm⟩
    · split at h
      · injection h with h
        exact ⟨_, _, _, h.symm⟩
      · cases h

/-! ## The sample memory (20_memory.md R86, 10_state.md R58) -/

/-- The sample memory and its attributes stand as they stood. -/
def captureKept (s t : State) : Prop := t.samples = s.samples ∧ t.sbRate = s.sbRate ∧ t.sbTrig = s.sbTrig

theorem captureKept_refl (s : State) : captureKept s s := ⟨rfl, rfl, rfl⟩

theorem captureKept_setOut (e : EngineId) (s : State) (o : EngineOut) : captureKept s (s.setOut e o) := by simp [captureKept]

theorem captureKept_storeAnswer (r : Option Hit) (s : State) : captureKept s (storeAnswer r s) := by
  cases r <;> exact ⟨rfl, rfl, rfl⟩

/-- An accepted START writes no sample: neither the command nor a START step that keeps the capture. -/
theorem startEngine_captureKept {e : EngineId} {ok : Bool} {k : State → Result} {s t : State}
    (hk : ∀ {u}, k (acceptStart e s) = .next u → captureKept (acceptStart e s) u) (h : startEngine e ok k s = .next t) :
    captureKept s t := by
  rcases startEngine_cases e ok k s with ⟨-, heq⟩ | ⟨-, -, heq⟩ | ⟨-, -, heq⟩
  · rw [heq] at h
    injection h with h
    exact h ▸ captureKept_refl s
  · rw [heq] at h
    injection h with h
    exact h ▸ captureKept_setOut e s _
  · have haccept : captureKept s (acceptStart e s) := by simp [captureKept, acceptStart]
    rw [captureKept, ← haccept.1, ← haccept.2.1, ← haccept.2.2]
    exact hk (heq ▸ h)

/-- No operation writes the sample memory. -/
theorem exec_captureKept {i : Instr} (hwf : i.wf = true) {s t : State} (h : exec i s = .next t) : captureKept s t := by
  have heff := exec_effect hwf s
  generalize exec i s = r at h heff
  cases heff with
  | startOw =>
    refine startEngine_captureKept (fun hu => ?_) h
    obtain ⟨w, pc, formed, rfl⟩ := owStart_writes hu
    exact ⟨rfl, rfl, rfl⟩
  | startJtag =>
    refine startEngine_captureKept (fun hu => ?_) h
    obtain ⟨w, pc, formed, rfl⟩ := jtStart_writes hu
    exact ⟨rfl, rfl, rfl⟩
  | startUart =>
    refine startEngine_captureKept (fun hu => ?_) h
    obtain ⟨w, pc, formed, rfl⟩ := uaStart_writes hu
    exact ⟨rfl, rfl, rfl⟩
  | output e o _ => injection h with h; exact h ▸ captureKept_setOut e s o
  | answer r => injection h with h; exact h ▸ captureKept_storeAnswer r s
  | tap | handler | blockReset => injection h with h; exact h ▸ ⟨rfl, rfl, rfl⟩

/-- A turn of an engine writes no sample. -/
theorem engineTurn_captureKept {e : EngineId} {s t : State} (h : engineTurn e s = .next t) : captureKept s t := by
  obtain ⟨-, ⟨hsamples, hrate, htrig, -⟩, -, -⟩ := engineTurn_writes h
  exact ⟨hsamples, hrate, htrig⟩

/-- A word that is rejected writes no sample. -/
theorem rejectWord_captureKept {w : OpWord} {s t : State} (h : rejectWord w s = .next t) : captureKept s t := by
  cases w with
  | cmd v => injection h with h; exact h ▸ ⟨rfl, rfl, rfl⟩
  | record | tap | cls => cases h

/-- A register write stores into one register of the host's side or makes a command wait. -/
theorem writeReg_captureKept (number : Nat) (v : Word) (s : State) : captureKept s (writeReg number v s) := by
  unfold writeReg
  split
  · rename_i r _
    cases r <;> exact ⟨rfl, rfl, rfl⟩
  · exact captureKept_refl s

/-- The only outside action that writes the sample memory is the acquisition's, and only with no engine RUNNING. -/
theorem act_captureKept {a : HostAct} {s t : State} (h : act a s = .next t) :
    captureKept s t ∨ runningEngines s = [] ∧ ∃ m r g, a = .capture m r g ∧ t = { s with samples := m, sbRate := r, sbTrig := g } := by
  cases a with
  | readReg | readResult | resetInput => injection h with h; exact .inl (h ▸ ⟨rfl, rfl, rfl⟩)
  | writeReg number v => injection h with h; exact .inl (h ▸ writeReg_captureKept number v s)
  | consume e =>
    injection h with h
    rcases consumeRecord_cases e s with ⟨-, heq⟩ | ⟨r, rest, -, heq⟩
    · exact .inl (h ▸ heq ▸ ⟨rfl, rfl, rfl⟩)
    · exact .inl (h ▸ heq ▸ captureKept_setOut e s _)
  | turn e => exact .inl (engineTurn_captureKept h)
  | capture m r g =>
    simp only [act] at h
    rcases loadCapture_cases m r g s with ⟨hnone, heq⟩ | ⟨-, heq⟩
    · rw [heq] at h
      injection h with h
      exact .inr ⟨hnone, m, r, g, rfl, h.symm⟩
    · rw [heq] at h
      cases h

/-- Settles O55: what a step can be, and for each what it leaves of the capture. -/
theorem onlyAcquisitionWritesSamples : Obligations.OnlyAcquisitionWritesSamples := by
  intro s t h
  rcases step_cases s with ⟨w, rest, i, -, hread, heq⟩ | ⟨w, rest, -, -, heq⟩ | ⟨a, rest, hops, hin, heq⟩ | ⟨e, k, -, -, heq⟩ |
    ⟨-, -, heq⟩
  · have hkept := exec_captureKept (readWord_eq_some.1 hread).2 (heq.symm.trans h)
    exact .inl hkept
  · have hkept := rejectWord_captureKept (heq.symm.trans h)
    exact .inl hkept
  · rcases act_captureKept (heq.symm.trans h) with hkept | ⟨hnone, m, r, g, rfl, ht⟩
    · exact .inl hkept
    · exact .inr ⟨hops, runningEngines_eq_nil.1 hnone, m, r, g, rest, hin, ht⟩
  · have hkept := engineTurn_captureKept (heq.symm.trans h)
    exact .inl hkept
  · injection heq.symm.trans h with hst
    exact .inl (hst ▸ captureKept_refl s)

end Sys2Proof.Machine
end

section
/-!
PROOFS. Family 20_memory.md, the words a step forms: an operation decodes from its encoding, so a word formed from a well-formed
operation is read and carried out (30_encoding.md R113 to R122, 93 U9).
-/

namespace Sys2Proof
open Machine

/-! ## Formed words decode to what they were formed from -/

/-- The row of a state and a TMS bit is read back from its index (30_encoding.md R121). -/
theorem decodeTap_tapIndex (t : TapState) (tms : Bool) : decodeTap (tapIndex t tms) = tapRow t tms := by
  cases t <;> cases tms <;> rfl

/-- A header whose `LEN` is 0 decodes as a record without a body. -/
theorem decodeRecord_bare {h : Header} (hlen : h.len = lenField 0) : decodeRecord [h.word] = decodeBare h := by
  simp only [decodeRecord, Header.ofWord_word, List.length_nil, hlen, if_true]

/-- A header whose `LEN` is 2 decodes with the two words after it. -/
theorem decodeRecord_pair {h : Header} (x y : Word) (hlen : h.len = lenField 2) :
    decodeRecord [h.word, x, y] = decodePair h x y := by
  simp only [decodeRecord, Header.ofWord_word, List.length_cons, List.length_nil, hlen, if_true]

theorem flagByte_presence (p : Bool) :
    (flagByte false false p).extractLsb' 1 7 = 0#7 ∧ (flagByte false false p)[0] = p := by revert p; decide

theorem flagByte_errors (dir fe pe : Bool) :
    (flagByte dir fe pe).extractLsb' 3 5 = 0#5 ∧ (flagByte dir fe pe)[0] = pe
      ∧ (flagByte dir fe pe)[1] = fe ∧ (flagByte dir fe pe)[2] = dir := by revert dir fe pe; decide

theorem subField_code (c : BitVec 4) :
    (0#4 ++ c : BitVec (4 + 4)).extractLsb' 4 4 = 0#4 ∧ (0#4 ++ c : BitVec (4 + 4)).extractLsb' 0 4 = c := by revert c; decide

/-- A JT_SHIFT record of any length decodes to its operation (30_encoding.md R116). -/
theorem decodeRecord_jtShift (chan : Byte) (body : List Word) :
    decodeRecord (recordWords (.jtShiftTdi chan body)) = .ok (.jtShiftTdi chan body)
      ∧ decodeRecord (recordWords (.jtShiftTdo chan body)) = .ok (.jtShiftTdo chan body) := by
  constructor <;>
    match body with
    | [] => exact decodeRecord_bare rfl
    | [x, y] => exact decodeRecord_pair x y rfl
    | [x] | x :: y :: z :: zs =>
      simp only [recordWords, recordHeader, recordBody, decodeRecord, Header.ofWord_word, if_true]
      rfl

/-- An operation decodes from its own encoding (30_encoding.md R113, R116, R121, R122). -/
theorem decode_encode (i : Instr) : decode (encode i) = .ok i := by
  cases i with
  | startOw | startJtag | startUart | cancelOw | cancelJtag | cancelUart | valueAt | findEdge | reset => rfl
  | clear chan => exact (decodeRecord_bare rfl).trans rfl
  | progress percent => exact (decodeRecord_bare rfl).trans rfl
  | endRun st code sym err => exact (decodeRecord_pair sym err rfl).trans rfl
  | owReset chan present start stop =>
    obtain ⟨hfixed, hpresent⟩ := flagByte_presence present
    refine (decodeRecord_pair start stop rfl).trans ?_
    simp [decodePair, hfixed, hpresent, whenFixed]
  | owByte chan value start stop => exact (decodeRecord_pair start stop rfl).trans rfl
  | owBusError chan start stop => exact (decodeRecord_pair start stop rfl).trans rfl
  | jtState chan state start stop =>
    obtain ⟨hhigh, hlow⟩ := subField_code state.code
    refine (decodeRecord_pair start stop rfl).trans ?_
    simp [decodePair, hhigh, hlow, whenFixed]
  | jtShiftTdi chan body => exact (decodeRecord_jtShift chan body).1
  | jtShiftTdo chan body => exact (decodeRecord_jtShift chan body).2
  | uaDataRx chan value pe fe start stop =>
    obtain ⟨hfixed, hpe, hfe, hdir⟩ := flagByte_errors false fe pe
    refine (decodeRecord_pair start stop rfl).trans ?_
    simp [decodePair, hfixed, hpe, hfe, hdir, whenFixed]
  | uaDataTx chan value pe fe start stop =>
    obtain ⟨hfixed, hpe, hfe, hdir⟩ := flagByte_errors true fe pe
    refine (decodeRecord_pair start stop rfl).trans ?_
    simp [decodePair, hfixed, hpe, hfe, hdir, whenFixed]
  | uaEvent chan label start stop =>
    obtain ⟨hhigh, hlow⟩ := subField_code label
    refine (decodeRecord_pair start stop rfl).trans ?_
    simp [decodePair, hhigh, hlow, whenFixed]
  | clsUnknown | clsOne | clsZero | clsReset => rfl
  | tapTestLogicReset0 | tapTestLogicReset1 | tapRunTestIdle0 | tapRunTestIdle1 | tapSelectDr0 | tapSelectDr1
  | tapCaptureDr0 | tapCaptureDr1 | tapShiftDr0 | tapShiftDr1 | tapExit1Dr0 | tapExit1Dr1 | tapPauseDr0 | tapPauseDr1
  | tapExit2Dr0 | tapExit2Dr1 | tapUpdateDr0 | tapUpdateDr1 | tapSelectIr0 | tapSelectIr1 | tapCaptureIr0 | tapCaptureIr1
  | tapShiftIr0 | tapShiftIr1 | tapExit1Ir0 | tapExit1Ir1 | tapPauseIr0 | tapPauseIr1 | tapExit2Ir0 | tapExit2Ir1
  | tapUpdateIr0 | tapUpdateIr1 => exact congrArg Except.ok (decodeTap_tapIndex _ _)

/-- The word of a well-formed operation is a legal one to wait. -/
theorem opLegal_encode {i : Instr} (h : i.wf = true) : opLegal (encode i) = true := by
  have hread : readWord (encode i) = some i := readWord_eq_some.2 ⟨decode_encode i, h⟩
  cases hw : encode i with
  | cmd => rfl
  | record | tap | cls => rw [hw] at hread; simp only [opLegal, hread, Option.isSome_some]

end Sys2Proof
end

section
/-!
PROOFS. Family 20_memory.md, safe states: what the rules of the engines form is well formed (30_encoding.md R116, R117, R124).
-/

namespace Sys2Proof.Machine

/-! ## Fields of formed operations -/

theorem clamp_bounds (x : Int) : 0 ≤ clamp x 0 100 ∧ clamp x 0 100 ≤ 100 := by unfold clamp; omega

/-- A clamped percentage fits its byte. -/
theorem percentLegal_clamp (x : Int) : percentLegal (BitVec.ofInt 8 (clamp x 0 100)) = true := by
  obtain ⟨h0, h100⟩ := clamp_bounds x
  simp only [percentLegal, BitVec.toNat_ofInt, decide_eq_true_eq]
  omega

/-- A sample index is written as a non-negative `int64` (30_encoding.md R116, 10_state.md R24). -/
theorem indexLegal_natWord {n : Nat} (h : n < 2 ^ 63) : indexLegal (natWord n) = true := by
  simp only [indexLegal, natWord, BitVec.msb_eq_decide, BitVec.toNat_ofNat, Bool.not_eq_true', decide_eq_false_iff_not]
  omega

/-- A bit-string read from a starting number: the string's own number below the shifted start. -/
theorem foldl_bits (bits : List Bool) (a : Nat) :
    bits.foldl (fun acc b => 2 * acc + b.toNat) a = a * 2 ^ bits.length + bitsNumber bits := by
  induction bits generalizing a with
  | nil => simp [bitsNumber]
  | cons b bits ih =>
    have hcons : bitsNumber (b :: bits) = b.toNat * 2 ^ bits.length + bitsNumber bits := by
      rw [bitsNumber, List.foldl_cons, ih]
      simp
    rw [List.foldl_cons, ih, hcons, List.length_cons, pow_succ]
    ring

theorem bitsNumber_cons (b : Bool) (bits : List Bool) :
    bitsNumber (b :: bits) = b.toNat * 2 ^ bits.length + bitsNumber bits := by
  rw [bitsNumber, List.foldl_cons, foldl_bits]
  simp

/-- The number of a bit-string fits as many bits as the string has. -/
theorem bitsNumber_lt (bits : List Bool) : bitsNumber bits < 2 ^ bits.length := by
  induction bits with
  | nil => simp [bitsNumber]
  | cons b bits ih =>
    have hb := b.toNat_le
    have hmul : b.toNat * 2 ^ bits.length ≤ 1 * 2 ^ bits.length := Nat.mul_le_mul_right _ hb
    rw [bitsNumber_cons, List.length_cons, pow_succ]
    omega

@[simp] theorem bitWords_length (bits : List Bool) : (bitWords bits).length = bitWordCount bits.length := by simp [bitWords]

/-- The bits above the last bit of a string are zero in its last bit word (30_encoding.md R117). -/
theorem paddingZero_bitWords (bits : List Bool) : paddingZero bits.length (bitWords bits) = true := by
  by_cases hmod : bits.length % 64 = 0
  · simp [paddingZero, hmod]
  · obtain ⟨q, hq⟩ : ∃ q, bitWordCount bits.length = q + 1 := ⟨bits.length / 64, by unfold bitWordCount; omega⟩
    have hlen : bits.length = 64 * q + bits.length % 64 := by unfold bitWordCount at hq; omega
    have hlast : (bitWords bits).getLastD 0#64 = natWord (bitsNumber bits >>> (64 * q)) := by
      simp [bitWords, hq, List.range_succ]
    have hlt : bitsNumber bits / 2 ^ (64 * q) < 2 ^ (bits.length % 64) := by
      rw [Nat.div_lt_iff_lt_mul (by positivity), ← pow_add, Nat.add_comm, ← hlen]
      exact bitsNumber_lt bits
    simp only [paddingZero, hlast, natWord, BitVec.toNat_ofNat, Nat.shiftRight_eq_div_pow, Bool.or_eq_true, decide_eq_true_eq]
    exact .inr (lt_of_le_of_lt (Nat.mod_le _ _) hlt)

/-- The body of a JT_SHIFT record inside the input bounds is well formed (30_encoding.md R116, R117). -/
theorem shiftBodyLegal_shiftBody {first last : Nat} {bits : List Bool} (hfirst : first < 2 ^ 63) (hlast : last < 2 ^ 63)
    (hne : bits ≠ []) (hlen : bits.length < 2 ^ 64) : shiftBodyLegal (shiftBody first last bits) = true := by
  have hcount : (natWord bits.length).toNat = bits.length := by
    rw [natWord, BitVec.toNat_ofNat, Nat.mod_eq_of_lt hlen]
  have hpos : natWord bits.length ≠ 0#64 := fun h0 => by
    rw [h0] at hcount
    exact hne (List.length_eq_zero_iff.1 hcount.symm)
  simp [shiftBodyLegal, shiftBody, indexLegal_natWord hfirst, indexLegal_natWord hlast, hpos, hcount, paddingZero_bitWords]

/-- The records of an END step are well formed, for each of the ends a run comes to (45_emitter.md R349). -/
theorem endRecords_wf {st : RunState} {code : FailCode} (hst : finalStateLegal st.code = true)
    (hcode : endCodeLegal code.code = true) (o : EngineOut) : ∀ i ∈ endRecords st code o, i.wf = true := by
  intro i hi
  simp only [endRecords, List.mem_append, List.mem_singleton] at hi
  rcases hi with hi | rfl
  · split_ifs at hi
    · rw [List.mem_singleton.1 hi]
      rfl
    · cases hi
  · simp [Instr.wf, hst, hcode]

theorem tapRow_wf (t : TapState) (tms : Bool) : (tapRow t tms).wf = true := by cases t <;> cases tms <;> rfl

theorem classInstr_wf (c : PulseClass) : (classInstr c).wf = true := by cases c <;> rfl

theorem labelLegal_labelCode (k : LaneKind) (high : Bool) : labelLegal (labelCode k high) = true := by
  cases k <;> cases high <;> rfl

end Sys2Proof.Machine
end

section
/-!
PROOFS. Family 20_memory.md, safe states: where a RUNNING engine stands in a safe state, and when a rule goes well
(20_memory.md R80, 10_state.md R24).
-/

namespace Sys2Proof.Machine

/-! ## Times inside the capture -/

theorem notBefore_iff {m : Memory} {t : Int} : notBefore m t = true ↔ ∃ x, m[0]? = some x ∧ x.time ≤ t := by
  cases m <;> simp [notBefore]

theorem notBefore_mono {m : Memory} {t u : Int} (h : notBefore m t = true) (htu : t ≤ u) : notBefore m u = true := by
  obtain ⟨x, hx, hxt⟩ := notBefore_iff.1 h
  exact notBefore_iff.2 ⟨x, hx, hxt.trans htu⟩

/-- No entry of a rising capture is before its first entry (10_state.md R22). -/
theorem notBefore_entry {m : Memory} (hwf : m.wf = true) {i : Nat} {x : Sample} (hx : m[i]? = some x) :
    notBefore m x.time = true := by
  obtain ⟨hi, -⟩ := List.getElem?_eq_some_iff.1 hx
  have hfirst : m[0]? = some m[0] := List.getElem?_eq_getElem (by omega)
  refine notBefore_iff.2 ⟨m[0], hfirst, ?_⟩
  rcases Nat.eq_zero_or_pos i with rfl | hpos
  · rw [hfirst, Option.some.injEq] at hx
    exact hx ▸ le_rfl
  · exact (Memory.wf_lt hwf hpos hfirst hx).le

/-- A window's start is not before the first entry (40_edge_scanner.md R156). -/
theorem window_notBefore {m : Memory} (hwf : m.wf = true) {s e : Nat} (hs : s < e) (he : e ≤ m.length) :
    ∃ t0 t1, window m s e = some (t0, t1) ∧ notBefore m t0 = true := by
  obtain ⟨x, y, hx, -, hw⟩ := window_eq_some hs he
  exact ⟨_, _, hw, notBefore_entry hwf hx⟩

/-- An edge found after a time of the capture is at a time of the capture. -/
theorem findEdge_notBefore {m : Memory} {t0 t1 : Int} {mask : ChannelBits} {dir : EdgeDir} {a : Hit}
    (h : notBefore m t0 = true) (ha : findEdge m t0 t1 mask dir = some a) : notBefore m a.time = true :=
  notBefore_mono h (findEdge_bounds ha).2.1.le

/-- The earlier of two edges found after a time of the capture is at a time of the capture. -/
theorem firstEvent_notBefore {m : Memory} {t0 t1 t : Int} {mask : ChannelBits} {high : Bool} (h : notBefore m t0 = true)
    (ht : firstEvent (findEdge m t0 t1 mask .rising) (findEdge m t0 t1 mask .falling) = some (t, high)) :
    notBefore m t = true := by
  cases hr : findEdge m t0 t1 mask .rising <;> cases hf : findEdge m t0 t1 mask .falling <;> rw [hr, hf] at ht
  case none.none => cases ht
  case none.some => cases ht; exact findEdge_notBefore h hf
  case some.none => cases ht; exact findEdge_notBefore h hr
  case some.some =>
    simp only [firstEvent] at ht
    split_ifs at ht <;> cases ht
    · exact findEdge_notBefore h hr
    · exact findEdge_notBefore h hf

/-- No sample instant of a frame is before its start edge (44_uart.md R296). -/
theorem le_sampleTime {t0 : Int} {cell : Frac} (hcell : cellLegal cell = true) (quarters : Nat) :
    t0 ≤ sampleTime t0 cell quarters := by
  simp only [cellLegal, Bool.and_eq_true, decide_eq_true_eq] at hcell
  obtain ⟨hnum, hden⟩ := hcell
  have hoffset : 0 ≤ (quarters : Int) * cell.num := mul_nonneg (Int.natCast_nonneg _) hnum
  rw [sampleTime, Int.le_ediv_iff_mul_le (by omega)]
  omega

/-- The levels of a channel at times of the capture are defined (40_edge_scanner.md R151). -/
theorem levels_eq_some {m : Memory} (chan : Byte) {ts : List Int} (h : ∀ t ∈ ts, notBefore m t = true) :
    ∃ bs, levels m chan ts = some bs := by
  induction ts with
  | nil => exact ⟨[], rfl⟩
  | cons t ts ih =>
    obtain ⟨ht, hts⟩ := List.forall_mem_cons.1 h
    obtain ⟨b, hb⟩ := Option.isSome_iff_exists.1 (level_isSome chan ht)
    obtain ⟨bs, hbs⟩ := ih hts
    exact ⟨b :: bs, by simp only [levels, hb, hbs]⟩

/-! ## Where a RUNNING engine stands -/

/-- The JTAG engine's latched registers: a window of the capture and legal channels. -/
structure JtLatched (m : Memory) (w : JtWork) : Prop where
  win_le : w.winS ≤ w.winE
  end_le : w.winE ≤ m.length
  tck : chanLegal w.tck = true
  tms : chanLegal w.tms = true
  tdi : ∀ ch, w.tdi = some ch → chanLegal ch = true
  tdo : ∀ ch, w.tdo = some ch → chanLegal ch = true

/-- `jtPlaced` as a proposition: where the scan stands, and what has been shifted. -/
structure JtPlaced (m : Memory) (w : JtWork) (slack : Nat) : Prop where
  idx_lt : w.idx < m.length
  span_le : w.spanStart ≤ m.length
  tdi_le : w.tdiAcc.length + slack ≤ w.idx
  tdo_le : w.tdoAcc.length + slack ≤ w.idx
  first_lt : ∀ i, w.shiftFirst = some i → i < m.length
  last_lt : ∀ i, w.shiftLast = some i → i < m.length
  shifted : w.shiftFirst ≠ none → w.shiftLast ≠ none → (w.tdi ≠ none → w.tdiAcc ≠ []) ∧ (w.tdo ≠ none → w.tdoAcc ≠ [])

theorem jtPlaced_iff {s : State} {slack : Nat} : jtPlaced s slack = true ↔ JtPlaced s.samples s.jtWork slack := by
  have hall : ∀ o : Option Nat, (o.all fun i => decide (i < s.samples.length)) = true ↔ ∀ i, o = some i → i < s.samples.length :=
    fun o => by cases o <;> simp
  simp only [jtPlaced, Bool.and_eq_true, decide_eq_true_eq, hall]
  constructor
  · rintro ⟨⟨⟨⟨⟨⟨hidx, hspan⟩, htdi⟩, htdo⟩, hfirst⟩, hlast⟩, hshifted⟩
    refine ⟨hidx, hspan, htdi, htdo, hfirst, hlast, fun hf hl => ?_⟩
    simp only [Bool.or_eq_true, Option.isNone_iff_eq_none, hf, hl, false_or, Bool.and_eq_true, Bool.not_eq_true',
      List.isEmpty_eq_false_iff] at hshifted
    exact ⟨fun h => hshifted.1.resolve_left h, fun h => hshifted.2.resolve_left h⟩
  · rintro ⟨hidx, hspan, htdi, htdo, hfirst, hlast, hshifted⟩
    refine ⟨⟨⟨⟨⟨⟨hidx, hspan⟩, htdi⟩, htdo⟩, hfirst⟩, hlast⟩, ?_⟩
    simp only [Bool.or_eq_true, Option.isNone_iff_eq_none, Bool.and_eq_true, Bool.not_eq_true', List.isEmpty_eq_false_iff]
    tauto

/-- The slack a step of the JTAG engine has in `jtReady`; `none` where it asks for no position. -/
def jtSlack (pc : JtPc) : Option Nat :=
  match pc with
  | .idle | .init | .done | .cancelled => none
  | .scan | .update | .span | .progress => some 0
  | .step | .clear | .shift => some 1

/-- Where a RUNNING JTAG engine stands. -/
structure JtStands (m : Memory) (w : JtWork) (pc : JtPc) : Prop where
  latched : JtLatched m w
  placed : ∀ slack, jtSlack pc = some slack → JtPlaced m w slack

theorem jtStands_iff {m : Memory} {w : JtWork} {pc : JtPc} :
    JtStands m w pc ↔ JtLatched m w ∧ ∀ slack, jtSlack pc = some slack → JtPlaced m w slack :=
  ⟨fun ⟨hlatched, hplaced⟩ => ⟨hlatched, hplaced⟩, fun ⟨hlatched, hplaced⟩ => ⟨hlatched, hplaced⟩⟩

theorem jtReady_iff {s : State} : jtReady s = true ↔ (s.running .jtag = true → JtStands s.samples s.jtWork s.jtPc) := by
  have hall : ∀ o : Option Byte, o.all chanLegal = true ↔ ∀ ch, o = some ch → chanLegal ch = true := fun o => by cases o <;> simp
  have hlatched : ∀ stage : Bool, (decide (s.jtWork.winS ≤ s.jtWork.winE) && decide (s.jtWork.winE ≤ s.samples.length)
      && chanLegal s.jtWork.tck && chanLegal s.jtWork.tms && s.jtWork.tdi.all chanLegal && s.jtWork.tdo.all chanLegal
      && stage) = true ↔ JtLatched s.samples s.jtWork ∧ stage = true := fun stage => by
    simp only [Bool.and_eq_true, decide_eq_true_eq, hall]
    exact ⟨fun ⟨⟨⟨⟨⟨⟨hwin, hend⟩, htck⟩, htms⟩, htdi⟩, htdo⟩, h⟩ => ⟨⟨hwin, hend, htck, htms, htdi, htdo⟩, h⟩,
      fun ⟨⟨hwin, hend, htck, htms, htdi, htdo⟩, h⟩ => ⟨⟨⟨⟨⟨⟨hwin, hend⟩, htck⟩, htms⟩, htdi⟩, htdo⟩, h⟩⟩
  cases hr : s.running .jtag with
  | false => simp [jtReady, hr]
  | true =>
    cases hpc : s.jtPc <;> simp only [jtReady, hr, hpc, Bool.not_true, Bool.false_or, hlatched, jtStands_iff, jtSlack, jtPlaced_iff,
      true_implies, reduceCtorEq, false_implies, implies_true, Option.some.injEq, forall_eq']

/-- The UART engine works on a lane of the kind asked for, from times of the capture. -/
structure OnLane (m : Memory) (w : UaWork) (data : Bool) : Prop where
  lane : ∃ l, currentLane w = some l ∧ isDataLane l.kind = data
  tStart : notBefore m w.tStart = true
  cursor : notBefore m w.cursor = true

theorem laneIs_iff {w : UaWork} {data : Bool} : laneIs w data = true ↔ ∃ l, currentLane w = some l ∧ isDataLane l.kind = data := by
  cases h : currentLane w <;> simp [laneIs, h]

theorem onLane_iff {s : State} {data : Bool} : (laneIs s.uaWork data && uaTimes s) = true ↔ OnLane s.samples s.uaWork data := by
  simp only [uaTimes, Bool.and_eq_true, laneIs_iff]
  exact ⟨fun ⟨h, h', h''⟩ => ⟨h, h', h''⟩, fun ⟨h, h', h''⟩ => ⟨h, h', h''⟩⟩

/-- What `uaReady` asks for at each step of the UART engine. -/
def UaStage (m : Memory) (w : UaWork) (pc : UaPc) : Prop :=
  match pc with
  | .idle | .done | .cancelled => True
  | .lane | .startBit => OnLane m w true
  | .cell => OnLane m w true ∧ notBefore m w.t0 = true
  | .fit => (OnLane m w true ∧ notBefore m w.t0 = true) ∧ cellLegal w.cell = true
  | .data | .parity | .stop => ((OnLane m w true ∧ notBefore m w.t0 = true) ∧ cellLegal w.cell = true) ∧ notBefore m w.tLast = true
  | .emit | .resume => OnLane m w true ∧ notBefore m w.tLast = true
  | .hs => OnLane m w false
  | .hsEvent => OnLane m w false ∧ notBefore m w.evTime = true
  | .progress => ∃ data, OnLane m w data
  | .nextLane => notBefore m w.tStart = true

/-- Where a RUNNING UART engine stands. -/
structure UaStands (m : Memory) (w : UaWork) (pc : UaPc) : Prop where
  lanes : ∀ l ∈ w.lanes, chanLegal l.chan = true
  stage : UaStage m w pc

theorem onSomeLane_iff {s : State} :
    ((currentLane s.uaWork).isSome && uaTimes s) = true ↔ ∃ data, OnLane s.samples s.uaWork data := by
  have hlane : (currentLane s.uaWork).isSome = true ↔ ∃ data, laneIs s.uaWork data = true := by
    cases h : currentLane s.uaWork <;> simp [laneIs, h]
  simp only [← onLane_iff, Bool.and_eq_true, hlane, exists_and_right]

theorem uaStands_iff {m : Memory} {w : UaWork} {pc : UaPc} :
    UaStands m w pc ↔ (∀ l ∈ w.lanes, chanLegal l.chan = true) ∧ UaStage m w pc :=
  ⟨fun ⟨hlanes, hstage⟩ => ⟨hlanes, hstage⟩, fun ⟨hlanes, hstage⟩ => ⟨hlanes, hstage⟩⟩

theorem uaReady_iff {s : State} : uaReady s = true ↔ (s.running .uart = true → UaStands s.samples s.uaWork s.uaPc) := by
  have hlanes : ∀ stage : Bool, ((s.uaWork.lanes.all fun l => chanLegal l.chan) && stage) = true ↔
      (∀ l ∈ s.uaWork.lanes, chanLegal l.chan = true) ∧ stage = true := fun stage => by
    rw [Bool.and_eq_true, List.all_eq_true]
  cases hr : s.running .uart with
  | false => simp [uaReady, hr]
  | true =>
    cases hpc : s.uaPc <;> simp only [uaReady, hr, hpc, Bool.not_true, Bool.false_or, hlanes, uaStands_iff, UaStage, true_implies,
      Bool.and_eq_true (_ && _), onLane_iff, onSomeLane_iff]

/-- Where an engine stands when it is RUNNING in a safe state. -/
def Stands (e : EngineId) (s : State) : Prop :=
  match e with
  | .ow => chanLegal s.owWork.line = true
  | .jtag => JtStands s.samples s.jtWork s.jtPc
  | .uart => UaStands s.samples s.uaWork s.uaPc

theorem safe_iff {s : State} : s.safe = true ↔ captureLegal s.samples = true ∧ s.inbox.all HostAct.legal = true
    ∧ s.ops.all opLegal = true ∧ ∀ e, s.running e = true → Stands e s := by
  have how : owReady s = true ↔ (s.running .ow = true → Stands .ow s) := by
    cases hr : s.running .ow <;> simp [owReady, hr, Stands]
  have hall : (∀ e, s.running e = true → Stands e s) ↔ owReady s = true ∧ jtReady s = true ∧ uaReady s = true := by
    rw [how, jtReady_iff, uaReady_iff]
    exact ⟨fun h => ⟨h .ow, h .jtag, h .uart⟩, fun ⟨h, h', h''⟩ e => by cases e <;> assumption⟩
  rw [hall]
  simp only [State.safe, Bool.and_eq_true, and_assoc]

/-- A legal capture rises and has fewer than `2^62` entries (10_state.md R22, R24). -/
theorem captureLegal_iff {m : Memory} : captureLegal m = true ↔ m.wf = true ∧ m.length < 2 ^ 62 := by
  simp only [captureLegal, Bool.and_eq_true, decide_eq_true_eq]

/-- The answer of a rule that goes well: a state in which well-formed operations have been formed and the engine stands. -/
def GoesWell (e : EngineId) (s : State) (r : Result) : Prop :=
  ∃ (t : State) (formed : List Instr), r = .next t ∧ t.ops = formed.map encode ++ s.ops ∧ (∀ i ∈ formed, i.wf = true) ∧ Stands e t

/-- A rule that forms nothing goes well when the engine stands after it. -/
theorem GoesWell.move {e : EngineId} {s t : State} (hops : t.ops = s.ops) (ht : Stands e t) : GoesWell e s (.next t) :=
  ⟨t, [], rfl, hops, List.forall_mem_nil _, ht⟩

/-- A rule that forms well-formed operations goes well when the engine stands after it. -/
theorem GoesWell.formed {e : EngineId} {s u : State} {is : List Instr} (hops : u.ops = s.ops) (hwf : ∀ i ∈ is, i.wf = true)
    (hu : Stands e (form is u)) : GoesWell e s (.next (form is u)) :=
  ⟨_, is, rfl, hops ▸ rfl, hwf, hu⟩

/-- The END step of a run goes well (45_emitter.md R349). -/
theorem GoesWell.ended {e : EngineId} {s u : State} {st : RunState} {code : FailCode} (hops : u.ops = s.ops)
    (hst : finalStateLegal st.code = true) (hcode : endCodeLegal code.code = true) (hu : Stands e (formEnd e st code u)) :
    GoesWell e s (.next (formEnd e st code u)) :=
  .formed hops (endRecords_wf hst hcode _) hu

end Sys2Proof.Machine
end

section
/-!
PROOFS. Family 20_memory.md, safe states: every rule of the 1-Wire and the JTAG engine goes well (42_onewire.md, 43_jtag_tap.md).
-/

namespace Sys2Proof.Machine

/-! ### The 1-Wire engine -/

theorem owBit_goesWell (bit : Bool) {s : State} (h : Stands .ow s) : GoesWell .ow s (owBit bit s) := by
  by_cases hlast : s.owWork.bitCount = 1
  · simp only [owBit, if_pos hlast]
    exact .formed rfl (List.forall_mem_singleton.2 h) h
  · simp only [owBit, if_neg hlast]
    exact .move rfl h

/-- Every rule of the 1-Wire engine goes well: its records name the latched line. -/
theorem owStep_goesWell {s : State} (h : Stands .ow s) : GoesWell .ow s (owStep s) := by
  have hline : chanLegal s.owWork.line = true := h
  unfold owStep
  cases s.owPc with
  | idle => exact .move rfl h
  | init =>
    simp only [owInit]
    split
    · exact .ended rfl rfl rfl h
    · exact .move rfl h
  | loop =>
    simp only [owLoop]
    split_ifs <;> exact .move rfl h
  | scan =>
    simp only [owScan]
    split
    · exact .move rfl h
    · exact .formed rfl (List.forall_mem_singleton.2 (classInstr_wf _)) h
  | reset => exact .formed rfl (List.forall_mem_singleton.2 hline) h
  | zero => exact owBit_goesWell false h
  | one => exact owBit_goesWell true h
  | unknown => exact .formed rfl (List.forall_mem_singleton.2 (by simp [Instr.wf, hline])) h
  | progress => exact .formed rfl (List.forall_mem_singleton.2 (percentLegal_clamp _)) h
  | done | cancelled => exact .ended rfl rfl rfl h

/-! ### The JTAG engine -/

/-- An engine placed with some slack is placed with less. -/
theorem JtPlaced.mono {m : Memory} {w : JtWork} {k k' : Nat} (h : JtPlaced m w k) (hk : k' ≤ k) : JtPlaced m w k' :=
  { h with
    tdi_le := by have := h.tdi_le; omega
    tdo_le := by have := h.tdo_le; omega }

/-- An engine that is placed stands at every step that asks for that slack. -/
theorem JtPlaced.stands {m : Memory} {w : JtWork} {pc : JtPc} {k : Nat} (h : JtPlaced m w k) (hlatched : JtLatched m w)
    (hpc : jtSlack pc = some k) : JtStands m w pc :=
  ⟨hlatched, fun slack hs => by rw [hpc, Option.some.injEq] at hs; exact hs ▸ h⟩

theorem jtInit_goesWell {s : State} (hwf : s.samples.wf = true) (hl : JtLatched s.samples s.jtWork) : GoesWell .jtag s (jtInit s) := by
  simp only [jtInit]
  split_ifs with hempty
  · exact .move rfl ⟨{ hl with }, nofun⟩
  · have hlt : s.jtWork.winS < s.jtWork.winE := lt_of_le_of_ne hl.win_le hempty
    obtain ⟨t0, t1, hw, -⟩ := window_notBefore hwf hlt hl.end_le
    simp only [hw]
    have hend := hl.end_le
    refine .move rfl (JtPlaced.stands (k := 0) ?_ { hl with } rfl)
    exact ⟨by dsimp only; omega, by dsimp only; omega, by simp, by simp, nofun, nofun, fun hf => absurd rfl hf⟩

/-- The next clock edge is later in the capture, so there is room for one more bit. -/
theorem jtScan_goesWell {s : State} (hwf : s.samples.wf = true) (hl : JtLatched s.samples s.jtWork)
    (hp : JtPlaced s.samples s.jtWork 0) : GoesWell .jtag s (jtScan s) := by
  have hidx := hp.idx_lt
  have hx : s.samples[s.jtWork.idx]? = some s.samples[s.jtWork.idx] := List.getElem?_eq_getElem hidx
  simp only [jtScan, hx]
  split_ifs
  · exact .move rfl ⟨hl, nofun⟩
  · split
    · exact .move rfl ⟨hl, nofun⟩
    · rename_i a ha
      obtain ⟨hentry, hafter, -⟩ := findEdge_bounds ha
      have hlater : s.jtWork.idx < a.idx := Memory.wf_idx_lt hwf hx hentry hafter
      have htdi := hp.tdi_le
      have htdo := hp.tdo_le
      refine .move rfl (JtPlaced.stands (k := 1) ?_ { hl with } rfl)
      exact { hp with
        idx_lt := (List.getElem?_eq_some_iff.1 hentry).1
        tdi_le := by dsimp only; omega
        tdo_le := by dsimp only; omega }

theorem jtClear_goesWell {s : State} (hl : JtLatched s.samples s.jtWork) (hp : JtPlaced s.samples s.jtWork 1) :
    GoesWell .jtag s (jtClear s) := by
  simp only [jtClear]
  split_ifs
  · have htdi := hp.tdi_le
    refine .move rfl (JtPlaced.stands (k := 1) ?_ { hl with } rfl)
    exact ⟨hp.idx_lt, hp.span_le, by simp only [List.length_nil]; omega, by simp only [List.length_nil]; omega, nofun, nofun,
      fun hf => absurd rfl hf⟩
  · exact .move rfl (hp.stands hl rfl)

/-- A present line gets one more bit. -/
theorem prependBit_length_le (val : ChannelBits) (line : Option Byte) (acc : List Bool) :
    (prependBit val line acc).length ≤ acc.length + 1 := by cases line <;> simp [prependBit]

theorem prependBit_ne_nil {line : Option Byte} (h : line ≠ none) (val : ChannelBits) (acc : List Bool) :
    prependBit val line acc ≠ [] := by
  obtain ⟨ch, rfl⟩ := Option.ne_none_iff_exists'.1 h
  exact List.cons_ne_nil _ _

/-- A shifted bit uses up the slack. -/
theorem jtShift_goesWell {s : State} (hl : JtLatched s.samples s.jtWork) (hp : JtPlaced s.samples s.jtWork 1) :
    GoesWell .jtag s (jtShift s) := by
  have hidx := hp.idx_lt
  have hx : s.samples[s.jtWork.idx]? = some s.samples[s.jtWork.idx] := List.getElem?_eq_getElem hidx
  simp only [jtShift, hx]
  split_ifs
  · have htdi := hp.tdi_le
    have htdo := hp.tdo_le
    have hfirst : s.jtWork.shiftFirst.getD s.jtWork.idx < s.samples.length := by
      cases hf : s.jtWork.shiftFirst with
      | none => exact hp.idx_lt
      | some i => exact hp.first_lt i hf
    refine .move rfl (JtPlaced.stands (k := 0) ?_ { hl with } rfl)
    exact ⟨hp.idx_lt, hp.span_le, (prependBit_length_le _ _ _).trans htdi, (prependBit_length_le _ _ _).trans htdo,
      fun i hi => Option.some.inj hi ▸ hfirst, fun i hi => Option.some.inj hi ▸ hp.idx_lt,
      fun _ _ => ⟨fun h => prependBit_ne_nil h _ _, fun h => prependBit_ne_nil h _ _⟩⟩
  · exact .move rfl ((hp.mono (Nat.zero_le 1)).stands hl rfl)

/-- The JT_SHIFT records of an engine that is placed are well formed (43_jtag_tap.md R256). -/
theorem jtShiftRecords_wf {m : Memory} {w : JtWork} (hlen : m.length < 2 ^ 62) (hl : JtLatched m w) (hp : JtPlaced m w 0) :
    ∀ i ∈ jtShiftRecords w, i.wf = true := by
  intro i hi
  unfold jtShiftRecords at hi
  split at hi
  · rename_i first last hfirst hlast
    have hidx := hp.idx_lt
    have hf := hp.first_lt first hfirst
    have hla := hp.last_lt last hlast
    obtain ⟨htdi, htdo⟩ := hp.shifted (by simp [hfirst]) (by simp [hlast])
    have hbody : ∀ acc : List Bool, acc ≠ [] → acc.length + 0 ≤ w.idx → shiftBodyLegal (shiftBody first last acc) = true :=
      fun acc hne hacc => shiftBodyLegal_shiftBody (by omega) (by omega) hne (by omega)
    simp only [List.mem_append, List.mem_map, Option.mem_toList] at hi
    rcases hi with ⟨ch, hch, rfl⟩ | ⟨ch, hch, rfl⟩
    · simp only [Instr.wf, hl.tdi ch hch, hbody _ (htdi (by simp [hch])) hp.tdi_le, Bool.and_self]
    · simp only [Instr.wf, hl.tdo ch hch, hbody _ (htdo (by simp [hch])) hp.tdo_le, Bool.and_self]
  · cases hi

theorem jtUpdate_goesWell {s : State} (hlen : s.samples.length < 2 ^ 62) (hl : JtLatched s.samples s.jtWork)
    (hp : JtPlaced s.samples s.jtWork 0) : GoesWell .jtag s (jtUpdate s) := by
  simp only [jtUpdate]
  split_ifs
  · exact .formed rfl (jtShiftRecords_wf hlen hl hp) (hp.stands hl rfl)
  · exact .move rfl (hp.stands hl rfl)

theorem jtSpan_goesWell {s : State} (hlen : s.samples.length < 2 ^ 62) (hl : JtLatched s.samples s.jtWork)
    (hp : JtPlaced s.samples s.jtWork 0) : GoesWell .jtag s (jtSpan s) := by
  have hidx := hp.idx_lt
  have hspan := hp.span_le
  simp only [jtSpan]
  split_ifs
  · refine .formed rfl (List.forall_mem_singleton.2 ?_) (JtPlaced.stands (k := 0) { hp with span_le := hidx } { hl with } rfl)
    simp only [Instr.wf, hl.tms, indexLegal_natWord (show s.jtWork.spanStart < 2 ^ 63 by omega),
      indexLegal_natWord (show s.jtWork.idx < 2 ^ 63 by omega), Bool.and_self]
  · exact .move rfl (hp.stands hl rfl)

/-- Every rule of the JTAG engine goes well from where the rule before it has brought it. -/
theorem jtStep_goesWell {s : State} (hcap : captureLegal s.samples = true) (h : Stands .jtag s) : GoesWell .jtag s (jtStep s) := by
  obtain ⟨hwf, hlen⟩ := captureLegal_iff.1 hcap
  have ⟨hl, hplaced⟩ : JtStands s.samples s.jtWork s.jtPc := h
  unfold jtStep
  cases hpc : s.jtPc with
  | idle => exact .move rfl h
  | init => exact jtInit_goesWell hwf hl
  | scan => exact jtScan_goesWell hwf hl (hplaced 0 (hpc ▸ rfl))
  | step =>
    have hp := hplaced 1 (hpc ▸ rfl)
    simp only [jtStepEdge, List.getElem?_eq_getElem hp.idx_lt]
    exact .formed rfl (List.forall_mem_singleton.2 (tapRow_wf _ _)) (hp.stands hl rfl)
  | clear => exact jtClear_goesWell hl (hplaced 1 (hpc ▸ rfl))
  | shift => exact jtShift_goesWell hl (hplaced 1 (hpc ▸ rfl))
  | update => exact jtUpdate_goesWell hlen hl (hplaced 0 (hpc ▸ rfl))
  | span => exact jtSpan_goesWell hlen hl (hplaced 0 (hpc ▸ rfl))
  | progress =>
    exact .formed rfl (List.forall_mem_singleton.2 (percentLegal_clamp _)) ((hplaced 0 (hpc ▸ rfl)).stands hl rfl)
  | done | cancelled => exact .ended rfl rfl rfl ⟨hl, nofun⟩

end Sys2Proof.Machine
end

section
/-!
PROOFS. Family 20_memory.md, safe states: every rule of the UART engine and every START step of a legal configuration goes well
(44_uart.md R296, R310, 46_host_commands.md R385).
-/

namespace Sys2Proof.Machine

/-! ### The UART engine -/

/-- The loop a lane's kind names is the loop of that lane (44_uart.md R293, R306). -/
theorem uaStage_laneLoop {m : Memory} {w : UaWork} {l : Lane} (hlane : currentLane w = some l)
    (hstart : notBefore m w.tStart = true) (hcursor : notBefore m w.cursor = true) : UaStage m w (laneLoop l.kind) := by
  have hon : OnLane m w (isDataLane l.kind) := ⟨⟨l, hlane, rfl⟩, hstart, hcursor⟩
  rw [laneLoop]
  cases hd : isDataLane l.kind <;> rw [hd] at hon <;> exact hon

/-- A lane that is worked on is one of the configured lanes. -/
theorem UaStands.chan {m : Memory} {w : UaWork} {pc : UaPc} (h : UaStands m w pc) {l : Lane} (hl : currentLane w = some l) :
    chanLegal l.chan = true := h.lanes l (List.mem_of_getElem? hl)

section UartRules

variable {s : State}

theorem uaLane_goesWell (h : UaStands s.samples s.uaWork .lane) : GoesWell .uart s (uaLane s) := by
  have hon : OnLane s.samples s.uaWork true := h.stage
  simp only [uaLane]
  split_ifs
  · exact .move rfl ⟨h.lanes, trivial⟩
  · exact .move rfl ⟨h.lanes, hon⟩
  · exact .move rfl ⟨h.lanes, hon.tStart⟩

theorem uaStartBit_goesWell (h : UaStands s.samples s.uaWork .startBit) : GoesWell .uart s (uaStartBit s) := by
  have hon : OnLane s.samples s.uaWork true := h.stage
  obtain ⟨l, hl, -⟩ := hon.lane
  simp only [uaStartBit, hl]
  split
  · exact .move rfl ⟨h.lanes, hon.tStart⟩
  · rename_i a ha
    exact .move rfl ⟨h.lanes, { hon with }, findEdge_notBefore hon.cursor ha⟩

/-- The cell is the rate over the baud, or the length of a start pulse that ends after it began (44_uart.md R295). -/
theorem uaCell_goesWell (h : UaStands s.samples s.uaWork .cell) : GoesWell .uart s (uaCell s) := by
  obtain ⟨hon, ht0⟩ : OnLane s.samples s.uaWork true ∧ notBefore s.samples s.uaWork.t0 = true := h.stage
  obtain ⟨l, hl, -⟩ := hon.lane
  simp only [uaCell, hl]
  split_ifs with hbaud
  · have hpos : 0 < s.uaWork.baud.toNat := Nat.pos_of_ne_zero fun h0 => hbaud (BitVec.eq_of_toNat_eq h0)
    exact .move rfl ⟨h.lanes, ⟨{ hon with }, ht0⟩, by simp [cellLegal, hpos]⟩
  · split
    · exact .move rfl ⟨h.lanes, hon.tStart⟩
    · rename_i b hb
      have hafter := (findEdge_bounds hb).2.1
      exact .move rfl ⟨h.lanes, ⟨{ hon with }, ht0⟩, by simp [cellLegal]; omega⟩

/-- The last stop sample is an instant of the frame, so not before its start edge. -/
theorem uaFit_goesWell (h : UaStands s.samples s.uaWork .fit) : GoesWell .uart s (uaFit s) := by
  obtain ⟨⟨hon, ht0⟩, hcell⟩ :
    (OnLane s.samples s.uaWork true ∧ notBefore s.samples s.uaWork.t0 = true) ∧ cellLegal s.uaWork.cell = true := h.stage
  have hlast : notBefore s.samples ((stopTimes s.uaWork).getLastD s.uaWork.t0) = true := by
    rcases List.mem_cons.1 List.getLastD_mem_cons with heq | hmem
    · rwa [heq]
    · obtain ⟨q, -, hq⟩ := List.mem_map.1 hmem
      exact hq ▸ notBefore_mono ht0 (le_sampleTime hcell q)
  simp only [uaFit]
  split_ifs
  · exact .move rfl ⟨h.lanes, hon.tStart⟩
  · exact .move rfl ⟨h.lanes, ⟨⟨{ hon with }, ht0⟩, hcell⟩, hlast⟩

/-- What the three sampling rules of a frame work from. -/
theorem sampling_stage {m : Memory} {w : UaWork} {pc : UaPc} (hpc : pc = .data ∨ pc = .parity ∨ pc = .stop) :
    UaStage m w pc ↔ ((OnLane m w true ∧ notBefore m w.t0 = true) ∧ cellLegal w.cell = true) ∧ notBefore m w.tLast = true := by
  rcases hpc with rfl | rfl | rfl <;> rfl

/-- The levels at instants of a frame are defined. -/
theorem frameLevels_eq_some {m : Memory} {w : UaWork} (ht0 : notBefore m w.t0 = true) (hcell : cellLegal w.cell = true)
    (chan : Byte) (quarters : List Nat) : ∃ bs, levels m chan (quarters.map (sampleTime w.t0 w.cell)) = some bs := by
  refine levels_eq_some chan fun t ht => ?_
  obtain ⟨q, -, rfl⟩ := List.mem_map.1 ht
  exact notBefore_mono ht0 (le_sampleTime hcell q)

theorem uaData_goesWell (h : UaStands s.samples s.uaWork .data) : GoesWell .uart s (uaData s) := by
  obtain ⟨⟨⟨hon, ht0⟩, hcell⟩, hlast⟩ := (sampling_stage (.inl rfl)).1 h.stage
  obtain ⟨l, hl, -⟩ := hon.lane
  obtain ⟨bs, hbs⟩ := frameLevels_eq_some ht0 hcell l.chan (dataPositions (frameBits s.uaWork.frame))
  simp only [uaData, hl, dataTimes, hbs]
  exact .move rfl ⟨h.lanes, ⟨⟨{ hon with }, ht0⟩, hcell⟩, hlast⟩

theorem uaParity_goesWell (h : UaStands s.samples s.uaWork .parity) : GoesWell .uart s (uaParity s) := by
  obtain ⟨⟨⟨hon, ht0⟩, hcell⟩, hlast⟩ := (sampling_stage (.inr (.inl rfl))).1 h.stage
  obtain ⟨l, hl, -⟩ := hon.lane
  have hparity : notBefore s.samples (parityTime s.uaWork) = true := notBefore_mono ht0 (le_sampleTime hcell _)
  obtain ⟨b, hb⟩ := Option.isSome_iff_exists.1 (level_isSome l.chan hparity)
  simp only [uaParity, hl, hb]
  split <;> exact .move rfl ⟨h.lanes, ⟨⟨{ hon with }, ht0⟩, hcell⟩, hlast⟩

theorem uaStop_goesWell (h : UaStands s.samples s.uaWork .stop) : GoesWell .uart s (uaStop s) := by
  obtain ⟨⟨⟨hon, ht0⟩, hcell⟩, hlast⟩ := (sampling_stage (.inr (.inr rfl))).1 h.stage
  obtain ⟨l, hl, -⟩ := hon.lane
  obtain ⟨bs, hbs⟩ := frameLevels_eq_some ht0 hcell l.chan
    (stopPositions (frameBits s.uaWork.frame) (parityCells (uaParityOf s.uaWork)) (uaStopOf s.uaWork))
  simp only [uaStop, hl, stopTimes, hbs]
  exact .move rfl ⟨h.lanes, { hon with }, hlast⟩

/-- A Data symbol is formed on a data lane only, RX or TX (44_uart.md R303). -/
theorem uaEmit_goesWell (h : UaStands s.samples s.uaWork .emit) : GoesWell .uart s (uaEmit s) := by
  obtain ⟨hon, hlast⟩ : OnLane s.samples s.uaWork true ∧ notBefore s.samples s.uaWork.tLast = true := h.stage
  obtain ⟨l, hl, hdata⟩ := hon.lane
  have hwf : chanLegal l.chan = true := h.chan hl
  simp only [uaEmit, hl]
  cases hk : l.kind with
  | rx | tx => exact .formed rfl (List.forall_mem_singleton.2 hwf) ⟨h.lanes, hon, hlast⟩
  | cts | rts | dtr | dsr | dcd | ri => rw [hk] at hdata; cases hdata

theorem uaResume_goesWell (h : UaStands s.samples s.uaWork .resume) : GoesWell .uart s (uaResume s) := by
  obtain ⟨hon, hlast⟩ : OnLane s.samples s.uaWork true ∧ notBefore s.samples s.uaWork.tLast = true := h.stage
  exact .move rfl ⟨h.lanes, true, { hon with cursor := hlast }⟩

theorem uaHs_goesWell (h : UaStands s.samples s.uaWork .hs) : GoesWell .uart s (uaHs s) := by
  have hon : OnLane s.samples s.uaWork false := h.stage
  obtain ⟨l, hl, -⟩ := hon.lane
  simp only [uaHs, hl]
  split_ifs
  · exact .move rfl ⟨h.lanes, trivial⟩
  · split
    · exact .move rfl ⟨h.lanes, hon.tStart⟩
    · rename_i t high ht
      exact .move rfl ⟨h.lanes, { hon with }, firstEvent_notBefore hon.cursor ht⟩

theorem uaHsEvent_goesWell (h : UaStands s.samples s.uaWork .hsEvent) : GoesWell .uart s (uaHsEvent s) := by
  obtain ⟨hon, hevent⟩ : OnLane s.samples s.uaWork false ∧ notBefore s.samples s.uaWork.evTime = true := h.stage
  obtain ⟨l, hl, -⟩ := hon.lane
  simp only [uaHsEvent, hl]
  refine .formed rfl (List.forall_mem_singleton.2 ?_) ⟨h.lanes, false, { hon with cursor := hevent }⟩
  simp [Instr.wf, h.chan hl, labelLegal_labelCode]

theorem uaProgress_goesWell (h : UaStands s.samples s.uaWork .progress) : GoesWell .uart s (uaProgress s) := by
  obtain ⟨data, hon⟩ : ∃ data, OnLane s.samples s.uaWork data := h.stage
  obtain ⟨l, hl, -⟩ := hon.lane
  simp only [uaProgress, hl]
  exact .formed rfl (List.forall_mem_singleton.2 (percentLegal_clamp _)) ⟨h.lanes, uaStage_laneLoop hl hon.tStart hon.cursor⟩

theorem uaNextLane_goesWell (h : UaStands s.samples s.uaWork .nextLane) : GoesWell .uart s (uaNextLane s) := by
  have hstart : notBefore s.samples s.uaWork.tStart = true := h.stage
  simp only [uaNextLane]
  split
  · exact .move rfl ⟨h.lanes, trivial⟩
  · rename_i l hl
    exact .move rfl ⟨h.lanes, uaStage_laneLoop hl hstart hstart⟩

end UartRules

/-- Every rule of the UART engine goes well from where the rule before it has brought it. -/
theorem uaStep_goesWell {s : State} (h : Stands .uart s) : GoesWell .uart s (uaStep s) := by
  have hs : UaStands s.samples s.uaWork s.uaPc := h
  unfold uaStep
  cases hpc : s.uaPc <;> rw [hpc] at hs
  case idle => exact .move rfl h
  case lane => exact uaLane_goesWell hs
  case startBit => exact uaStartBit_goesWell hs
  case cell => exact uaCell_goesWell hs
  case fit => exact uaFit_goesWell hs
  case data => exact uaData_goesWell hs
  case parity => exact uaParity_goesWell hs
  case stop => exact uaStop_goesWell hs
  case emit => exact uaEmit_goesWell hs
  case resume => exact uaResume_goesWell hs
  case hs => exact uaHs_goesWell hs
  case hsEvent => exact uaHsEvent_goesWell hs
  case progress => exact uaProgress_goesWell hs
  case nextLane => exact uaNextLane_goesWell hs
  case done => exact .ended rfl rfl rfl ⟨hs.lanes, trivial⟩
  case cancelled => exact .ended rfl rfl rfl ⟨hs.lanes, trivial⟩

/-! ### The START steps -/

/-- A register that names a channel names one of the 32 (10_state.md R44). -/
theorem chanLegal_chanByte {w : Word} (h : namesChannel w) : chanLegal (chanByte w) = true := by
  unfold namesChannel at h
  simp only [chanLegal, chanByte_toNat, decide_eq_true_eq]
  omega

/-- OW.START with a legal configuration (42_onewire.md R190, R191). -/
theorem owStart_goesWell {s : State} (hwf : s.samples.wf = true) (h : owLegal s) : GoesWell .ow s (owStart s) := by
  obtain ⟨-, ⟨-, hend⟩, hline, -⟩ := h
  have hchan := chanLegal_chanByte hline
  simp only [owStart]
  split_ifs with hlt
  · obtain ⟨t0, t1, hw, -⟩ := window_notBefore hwf hlt hend
    simp only [hw]
    exact .formed rfl (List.forall_mem_singleton.2 hchan) hchan
  · exact .formed rfl (List.forall_mem_singleton.2 hchan) hchan

/-- JTAG.START with a legal configuration (43_jtag_tap.md R250). -/
theorem jtStart_goesWell {s : State} (h : jtLegal s) : GoesWell .jtag s (jtStart s) := by
  obtain ⟨-, ⟨hwin, hend⟩, htck, htms, htdi, htdo⟩ := h
  have hlatched : ∀ w : JtWork, JtLatched s.samples { w with
      winS := s.jtConfig.winS.toNat, winE := s.jtConfig.winE.toNat, tck := chanByte s.jtConfig.tck
      tms := chanByte s.jtConfig.tms, tdi := chanOf s.jtConfig.tdi, tdo := chanOf s.jtConfig.tdo } := fun w =>
    ⟨hwin, hend, chanLegal_chanByte htck, chanLegal_chanByte htms, chanOf_legal htdi, chanOf_legal htdo⟩
  refine .formed rfl (fun i hi => ?_) ⟨hlatched s.jtWork, nofun⟩
  simp only [jtClears, List.mem_append, List.mem_cons, List.not_mem_nil, or_false, List.mem_map, Option.mem_toList] at hi
  obtain (((rfl | rfl) | ⟨ch, hch, rfl⟩) | ⟨ch, hch, rfl⟩) := hi
  · exact chanLegal_chanByte htck
  · exact chanLegal_chanByte htms
  · exact chanOf_legal htdi ch hch
  · exact chanOf_legal htdo ch hch

/-- UART.START with a legal configuration (44_uart.md R290, R291). -/
theorem uaStart_goesWell {s : State} (hwf : s.samples.wf = true) (h : uaLegal s) : GoesWell .uart s (uaStart s) := by
  have hlanes := lanesOf_legal h
  obtain ⟨-, ⟨hwin, hend⟩, -⟩ := h
  have hclears : ∀ i ∈ (lanesOf s.uaConfig).map (fun l => Instr.clear l.chan), i.wf = true := by
    intro i hi
    obtain ⟨l, hl, rfl⟩ := List.mem_map.1 hi
    exact hlanes l hl
  simp only [uaStart]
  split
  · exact .formed rfl hclears ⟨hlanes, trivial⟩
  · rename_i l rest hl
    split_ifs with hempty
    · exact .formed rfl hclears ⟨hlanes, trivial⟩
    · obtain ⟨t0, t1, hw, ht0⟩ := window_notBefore hwf (lt_of_le_of_ne hwin hempty) hend
      simp only [hw]
      have hfirst : (lanesOf s.uaConfig)[0]? = some l := by rw [hl]; rfl
      exact .formed rfl hclears ⟨hlanes, uaStage_laneLoop hfirst ht0 ht0⟩

end Sys2Proof.Machine
end

section
/-!
PROOFS. Family 20_memory.md, safe states: from a safe state every step answers a safe state (20_memory.md R80, 10_state.md R58).
-/

namespace Sys2Proof.Machine

/-! ## From the rules to the step -/

theorem running_of_out_eq {s t : State} {e : EngineId} (h : t.out e = s.out e) : t.running e = s.running e := by
  rw [State.running, State.running, h]

/-- Where an engine stands is said by the capture, its working registers and its next step. -/
theorem stands_of_othersKept {e f : EngineId} (hne : f ≠ e) {s t : State} (hsamples : t.samples = s.samples)
    (hkept : othersKept e s t) : (Stands f t ↔ Stands f s) ∧ t.running f = s.running f := by
  obtain ⟨how, hjt, hua⟩ := hkept
  cases f with
  | ow =>
    obtain ⟨hwork, hout, -⟩ := how hne.symm
    exact ⟨by simp only [Stands, hwork], running_of_out_eq hout⟩
  | jtag =>
    obtain ⟨hwork, hout, hpc⟩ := hjt hne.symm
    exact ⟨by simp only [Stands, hsamples, hwork, hpc], running_of_out_eq hout⟩
  | uart =>
    obtain ⟨hwork, hout, hpc⟩ := hua hne.symm
    exact ⟨by simp only [Stands, hsamples, hwork, hpc], running_of_out_eq hout⟩

/-- A change to one engine, the waiting words and the actions to come keeps a state safe when it keeps that engine, the words and
the actions in order. -/
theorem safe_of_othersKept {e : EngineId} {s t : State} (hs : s.safe = true) (hkept : othersKept e s t)
    (hsamples : t.samples = s.samples) (hinbox : t.inbox.all HostAct.legal = true) (hops : t.ops.all opLegal = true)
    (he : t.running e = true → Stands e t) : t.safe = true := by
  obtain ⟨hcap, -, -, hstands⟩ := safe_iff.1 hs
  refine safe_iff.2 ⟨hsamples ▸ hcap, hinbox, hops, fun f hf => ?_⟩
  by_cases hfe : f = e
  · exact hfe ▸ he (hfe ▸ hf)
  · obtain ⟨hiff, hrun⟩ := stands_of_othersKept hfe hsamples hkept
    exact hiff.2 (hstands f (hrun ▸ hf))

/-- A safe state stays safe when fewer words and fewer actions wait. -/
theorem safe_of_less {s : State} (hs : s.safe = true) {ops : List OpWord} {inbox : List HostAct} {tick : Nat}
    (hops : ops.all opLegal = true) (hinbox : inbox.all HostAct.legal = true) :
    ({ s with ops := ops, inbox := inbox, tick := tick } : State).safe = true := by
  obtain ⟨-, -, -, hstands⟩ := safe_iff.1 hs
  exact safe_of_othersKept (e := .ow) hs ⟨fun _ => ⟨rfl, rfl, rfl⟩, fun _ => ⟨rfl, rfl, rfl⟩, fun _ => ⟨rfl, rfl, rfl⟩⟩
    rfl hinbox hops (hstands .ow)

/-- A rule that goes well, and writes nothing of another engine, takes a safe state to a safe one. -/
theorem GoesWell.safe {e : EngineId} {s u : State} {r : Result} (h : GoesWell e u r) (hs : s.safe = true)
    (hops : u.ops = s.ops) (hframe : ∀ t, r = .next t → othersKept e s t ∧ t.samples = s.samples ∧ t.inbox = s.inbox) :
    ∃ t, r = .next t ∧ t.safe = true := by
  obtain ⟨t, formed, hr, htops, hwf, hstands⟩ := h
  obtain ⟨hkept, hsamples, hinbox⟩ := hframe t hr
  obtain ⟨-, hin, hold, -⟩ := safe_iff.1 hs
  have hformed : (formed.map encode).all opLegal = true := by
    rw [List.all_eq_true]
    intro w hw
    obtain ⟨i, hi, rfl⟩ := List.mem_map.1 hw
    exact opLegal_encode (hwf i hi)
  refine ⟨t, hr, safe_of_othersKept hs hkept hsamples (hinbox ▸ hin) ?_ fun _ => hstands⟩
  rw [htops, hops, List.all_append, hformed, hold, Bool.and_self]

/-- What `safe` needs of the host's side. -/
theorem capture_inbox_of_hostSideKept {s t : State} (h : hostSideKept s t) : t.samples = s.samples ∧ t.inbox = s.inbox := by
  unfold hostSideKept at h
  tauto

/-- Every turn of an engine goes well from a safe state. -/
theorem engineTurn_safe (e : EngineId) {s : State} (hs : s.safe = true) : ∃ t, engineTurn e s = .next t ∧ t.safe = true := by
  obtain ⟨hcap, -, -, hstands⟩ := safe_iff.1 hs
  by_cases hr : (s.out e).status.state = .running
  · have hst : Stands e s := hstands e (by simp [State.running, hr])
    have hwell : GoesWell e s (engineTurn e s) := by
      cases e with
      | ow => rw [engineTurn_ow hr]; exact owStep_goesWell (s := { s with cur := .ow }) hst
      | jtag => rw [engineTurn_jtag hr]; exact jtStep_goesWell (s := { s with cur := .jtag }) hcap hst
      | uart => rw [engineTurn_uart hr]; exact uaStep_goesWell (s := { s with cur := .uart }) hst
    refine hwell.safe hs rfl fun t ht => ?_
    obtain ⟨hkept, hhost, -, -⟩ := engineTurn_writes ht
    exact ⟨hkept, capture_inbox_of_hostSideKept hhost⟩
  · exact ⟨s, engineTurn_idle hr, hs⟩

/-- Writing one engine's output side keeps a state safe, unless it sets the engine RUNNING. -/
theorem safe_setOut {e : EngineId} {s : State} {o : EngineOut} (hs : s.safe = true)
    (ho : o.status.state = .running → (s.out e).status.state = .running) : (s.setOut e o).safe = true := by
  obtain ⟨-, hin, hops, hstands⟩ := safe_iff.1 hs
  have hiff : Stands e (s.setOut e o) ↔ Stands e s := by cases e <;> rfl
  refine safe_of_othersKept (e := e) hs (by cases e <;> simp [othersKept, State.setOut]) (setOut_samples e s o)
    (by rwa [setOut_inbox]) (by rwa [setOut_ops]) fun hr => hiff.2 (hstands e ?_)
  simp only [State.running, out_setOut, beq_iff_eq] at hr ⊢
  exact ho hr

/-- The state of the TAP controller has no part in where the JTAG engine stands. -/
theorem safe_tapMove (x : TapState) {s : State} (hs : s.safe = true) : (tapMove x s).safe = true := by
  obtain ⟨-, hin, hops, hstands⟩ := safe_iff.1 hs
  refine safe_of_othersKept (e := .jtag) hs (by simp [othersKept]) rfl hin hops fun hr => ?_
  obtain ⟨hl, hplaced⟩ : JtStands s.samples s.jtWork s.jtPc := hstands .jtag hr
  exact ⟨{ hl with }, fun slack hslack => { hplaced slack hslack with }⟩

/-- The handler has no part in where the 1-Wire engine stands. -/
theorem safe_owGoto (pc : OwPc) {s : State} (hs : s.safe = true) : (owGoto pc s).safe = true := by
  obtain ⟨-, hin, hops, hstands⟩ := safe_iff.1 hs
  exact safe_of_othersKept (e := .ow) hs (by simp [othersKept]) rfl hin hops (hstands .ow)

/-- A state that keeps the engines, the capture, the words and the actions is as safe. -/
theorem safe_of_enginesKept {s t : State} (hs : s.safe = true) (hkept : ∀ e, othersKept e s t)
    (hsamples : t.samples = s.samples) (hinbox : t.inbox = s.inbox) (hops : t.ops.all opLegal = true) : t.safe = true := by
  obtain ⟨-, hin, -, hstands⟩ := safe_iff.1 hs
  obtain ⟨hiff, hrun⟩ := stands_of_othersKept (f := .ow) (e := .jtag) (by decide) hsamples (hkept .jtag)
  exact safe_of_othersKept hs (hkept .ow) hsamples (hinbox ▸ hin) hops fun hr => hiff.2 (hstands .ow (hrun ▸ hr))

theorem safe_storeAnswer (r : Option Hit) {s : State} (hs : s.safe = true) : (storeAnswer r s).safe = true := by
  obtain ⟨-, -, hops, -⟩ := safe_iff.1 hs
  cases r <;> exact safe_of_enginesKept hs (fun e => by simp [othersKept, storeAnswer]) rfl rfl hops

/-- No engine is RUNNING after a block reset, and no word waits (70_reset_and_hazards.md R440). -/
theorem safe_blockReset {s : State} (hs : s.safe = true) : (blockReset s).safe = true := by
  obtain ⟨hcap, hin, -, -⟩ := safe_iff.1 hs
  refine safe_iff.2 ⟨hcap, hin, rfl, fun e he => ?_⟩
  rw [State.running, blockReset_out] at he
  cases he

/-- A START keeps a state safe when the START step of a legal configuration goes well. -/
theorem startEngine_safe {e : EngineId} {ok : Bool} {k : State → Result} {s : State} (hs : s.safe = true)
    (hwell : ok = true → GoesWell e (acceptStart e s) (k (acceptStart e s)))
    (hframe : ∀ t, k (acceptStart e s) = .next t → othersKept e s t ∧ t.samples = s.samples ∧ t.inbox = s.inbox) :
    ∃ t, startEngine e ok k s = .next t ∧ t.safe = true := by
  rcases startEngine_cases e ok k s with ⟨-, heq⟩ | ⟨-, -, heq⟩ | ⟨-, hok, heq⟩
  · exact ⟨s, heq, hs⟩
  · exact ⟨_, heq, safe_setOut hs nofun⟩
  · rw [heq]
    exact (hwell hok).safe hs (by simp [acceptStart]) hframe

/-- A well-formed operation is carried out and keeps a state safe. -/
theorem exec_safe {i : Instr} (hwf : i.wf = true) {s : State} (hs : s.safe = true) : ∃ t, exec i s = .next t ∧ t.safe = true := by
  obtain ⟨hcap, -, -, -⟩ := safe_iff.1 hs
  obtain ⟨hrising, -⟩ := captureLegal_iff.1 hcap
  have heff := exec_effect hwf s
  generalize exec i s = r at heff
  cases heff with
  | startOw =>
    refine startEngine_safe hs (fun hok => owStart_goesWell hrising ((owConfigOk_iff s).1 hok)) fun t ht => ?_
    obtain ⟨w, pc, formed, rfl⟩ := owStart_writes ht
    exact ⟨by simp [othersKept, acceptStart, State.setOut], rfl, rfl⟩
  | startJtag =>
    refine startEngine_safe hs (fun hok => jtStart_goesWell ((jtConfigOk_iff s).1 hok)) fun t ht => ?_
    obtain ⟨w, pc, formed, rfl⟩ := jtStart_writes ht
    exact ⟨by simp [othersKept, acceptStart, State.setOut], rfl, rfl⟩
  | startUart =>
    refine startEngine_safe hs (fun hok => uaStart_goesWell hrising ((uaConfigOk_iff s).1 hok)) fun t ht => ?_
    obtain ⟨w, pc, formed, rfl⟩ := uaStart_writes ht
    exact ⟨by simp [othersKept, acceptStart, State.setOut], rfl, rfl⟩
  | output e o ho => exact ⟨_, rfl, safe_setOut hs ho⟩
  | tap x => exact ⟨_, rfl, safe_tapMove x hs⟩
  | handler pc => exact ⟨_, rfl, safe_owGoto pc hs⟩
  | answer r => exact ⟨_, rfl, safe_storeAnswer r hs⟩
  | blockReset => exact ⟨_, rfl, safe_blockReset hs⟩

/-- The only legal word that is rejected is a command, which sets a bit (46_host_commands.md R392). -/
theorem rejectWord_safe {w : OpWord} (hw : opLegal w = true) (hread : readWord w = none) {s : State} (hs : s.safe = true) :
    ∃ t, rejectWord w s = .next t ∧ t.safe = true := by
  obtain ⟨-, -, hops, -⟩ := safe_iff.1 hs
  cases w with
  | cmd v => exact ⟨_, rfl, safe_of_enginesKept hs (fun e => by simp [othersKept]) rfl rfl hops⟩
  | record | tap | cls => simp only [opLegal, hread] at hw; cases hw

/-- A register write keeps the engines; a write to CMD makes a command wait (46_host_commands.md R381). -/
theorem safe_writeReg (number : Nat) (v : Word) {s : State} (hs : s.safe = true) : (writeReg number v s).safe = true := by
  obtain ⟨-, -, hops, -⟩ := safe_iff.1 hs
  unfold writeReg
  split
  · rename_i r _
    cases r <;> exact safe_of_enginesKept hs (fun e => by simp [othersKept, writeNamed]) rfl rfl hops
  · exact hs

/-- Replacing the host's last reply keeps a state safe. -/
theorem safe_hostReply (reply : List Word) {s : State} (hs : s.safe = true) :
    ({ s with hostReply := reply } : State).safe = true := by
  obtain ⟨-, -, hops, -⟩ := safe_iff.1 hs
  exact safe_of_enginesKept hs (fun e => by simp [othersKept]) rfl rfl hops

theorem safe_consumeRecord (e : EngineId) {s : State} (hs : s.safe = true) : (consumeRecord e s).safe = true := by
  rcases consumeRecord_cases e s with ⟨-, heq⟩ | ⟨r, rest, -, heq⟩
  · exact heq ▸ safe_hostReply [] hs
  · exact heq ▸ safe_hostReply r (safe_setOut hs id)

/-- A legal action from outside keeps a state safe, unless it is the acquisition's with an engine RUNNING. -/
theorem act_safe {a : HostAct} (ha : a.legal = true) {s : State} (hs : s.safe = true) :
    (∃ t, act a s = .next t ∧ t.safe = true)
    ∨ ((∃ m r g, a = .capture m r g) ∧ runningEngines s ≠ [] ∧ act a s = .fault .captureChangedWhileRunning) := by
  cases a with
  | readReg number => exact .inl ⟨_, rfl, safe_hostReply _ hs⟩
  | writeReg number v => exact .inl ⟨_, rfl, safe_writeReg number v hs⟩
  | consume e => exact .inl ⟨_, rfl, safe_consumeRecord e hs⟩
  | readResult e position => exact .inl ⟨_, rfl, safe_hostReply _ hs⟩
  | resetInput => exact .inl ⟨_, rfl, safe_blockReset hs⟩
  | turn e => exact .inl (engineTurn_safe e hs)
  | capture m r g =>
    rcases loadCapture_cases m r g s with ⟨hnone, heq⟩ | ⟨hsome, heq⟩
    · obtain ⟨-, hin, hops, -⟩ := safe_iff.1 hs
      refine .inl ⟨_, heq, safe_iff.2 ⟨ha, hin, hops, fun e he => ?_⟩⟩
      have hrunning : s.running e = true := by rw [← he]; cases e <;> rfl
      exact absurd (beq_iff_eq.1 hrunning) (runningEngines_eq_nil.1 hnone e)
    · exact .inr ⟨⟨m, r, g, rfl⟩, hsome, heq⟩

/-- Settles O59: `Stands` holds of every RUNNING engine in a safe state, each rule of an engine goes well from there, and each
operation and action keeps what it does not write. -/
theorem safeStatesNeverStop : Obligations.SafeStatesNeverStop := by
  intro s hs
  obtain ⟨-, hin, hops, -⟩ := safe_iff.1 hs
  rcases step_cases s with ⟨w, rest, i, ho, hread, heq⟩ | ⟨w, rest, ho, hread, heq⟩ | ⟨a, rest, ho, hi, heq⟩ | ⟨e, k, ho, hi, heq⟩ |
    ⟨-, -, heq⟩
  · rw [ho, List.all_cons, Bool.and_eq_true] at hops
    exact .inl (heq ▸ exec_safe (readWord_eq_some.1 hread).2 (safe_of_less hs hops.2 hin))
  · rw [ho, List.all_cons, Bool.and_eq_true] at hops
    exact .inl (heq ▸ rejectWord_safe hops.1 hread (safe_of_less hs hops.2 hin))
  · rw [hi, List.all_cons, Bool.and_eq_true] at hin
    rcases act_safe hin.1 (safe_of_less hs hops hin.2) with hnext | ⟨⟨m, r, g, rfl⟩, hrunning, hfault⟩
    · exact .inl (heq ▸ hnext)
    · exact .inr ⟨⟨ho, ⟨m, r, g, rest, hi⟩, hrunning⟩, heq.trans hfault⟩
  · exact .inl (heq ▸ engineTurn_safe e (safe_of_less hs hops hin))
  · exact .inl ⟨s, heq, hs⟩

end Sys2Proof.Machine
end

section
/-!
PROOFS. Family 30_encoding.md, the codec: a word that decodes is the encoding of what it decodes to (30_encoding.md R112 to R122, R125).
-/

namespace Sys2Proof
open Machine

/-! ## Fields of a word -/

/-- Two neighbouring fields of a word stand side by side in it. -/
theorem extractLsb'_append {width : Nat} (x : BitVec width) (start low high : Nat) :
    x.extractLsb' (start + low) high ++ x.extractLsb' start low = x.extractLsb' start (high + low) := by
  refine BitVec.eq_of_getLsbD_eq fun i hi => ?_
  simp only [BitVec.getLsbD_append, BitVec.getLsbD_extractLsb', hi, decide_true, Bool.true_and]
  split_ifs with h
  · simp [h]
  · simp [show i - low < high by omega, show start + low + (i - low) = start + i by omega]

/-- One bit of a word is its field of width 1. -/
theorem ofBool_getLsbD {width : Nat} (x : BitVec width) (k : Nat) : BitVec.ofBool (x.getLsbD k) = x.extractLsb' k 1 := by
  refine BitVec.eq_of_getLsbD_eq fun i hi => ?_
  obtain rfl : i = 0 := by omega
  simp

/-- The header word is built of nothing but its fields (30_encoding.md R114). -/
@[simp] theorem Header.word_ofWord (w : Word) : (Header.ofWord w).word = w := by
  simp only [Header.word, Header.ofWord]
  rw [extractLsb'_append w 24 8 32, extractLsb'_append w 16 8, extractLsb'_append w 8 8, extractLsb'_append w 0 8]
  exact BitVec.extractLsb'_eq_self

/-! ## Command words -/

/-- A word with no reserved bit set is the command word of its two fields (30_encoding.md R112). -/
theorem commandWord_of_fields {v : Word} (hres : v.extractLsb' 10 54 = 0#54) {op eng : Nat}
    (hop : (v.extractLsb' 0 8).toNat = op) (heng : (v.extractLsb' 8 2).toNat = eng) :
    commandWord (BitVec.ofNat 8 op) (BitVec.ofNat 2 eng) = v := by
  obtain ⟨-, hop⟩ := BitVec.toNat_eq_nat.1 hop
  obtain ⟨-, heng⟩ := BitVec.toNat_eq_nat.1 heng
  rw [commandWord, ← hop, ← heng, ← hres, extractLsb'_append v 8 2, extractLsb'_append v 0 8]
  exact BitVec.extractLsb'_eq_self

/-- A command word that decodes is the one its operation forms (30_encoding.md R113). -/
theorem encode_of_decodeCommand {v : Word} {i : Instr} (h : decodeCommand v = .ok i) : encode i = .cmd v := by
  by_cases hres : v.extractLsb' 10 54 = 0#54
  · rw [decodeCommand, if_pos hres] at h
    split at h
    all_goals cases h
    all_goals next hop heng => exact congrArg OpWord.cmd (commandWord_of_fields hres hop heng)
  · rw [decodeCommand, if_neg hres] at h
    cases h

/-! ## TAP rows and pulse classes -/

/-- A TAP state has the code it was made from (30_encoding.md R120). -/
@[simp] theorem TapState.code_ofCode (c : BitVec 4) : (TapState.ofCode c).code = c := by
  revert c
  decide

/-- A table row is written as the index of its state and TMS bit (30_encoding.md R121). -/
theorem encode_tapRow (t : TapState) (tms : Bool) : encode (tapRow t tms) = .tap (tapIndex t tms) := by
  cases t <;> cases tms <;> rfl

/-- Every row index is the one its operation forms (30_encoding.md R121, R126). -/
theorem encode_decodeTap (row : BitVec 5) : encode (decodeTap row) = .tap row := by
  rw [decodeTap, encode_tapRow, tapIndex, TapState.code_ofCode, ofBool_getLsbD, extractLsb'_append row 0 1]
  exact congrArg OpWord.tap BitVec.extractLsb'_eq_self

/-- Every class code is the one its operation forms (30_encoding.md R122). -/
theorem encode_decodeClass (code : BitVec 2) : encode (decodeClass code) = .cls code := by
  revert code
  decide

/-! ## Records -/

/-- A byte with its five high bits zero is the flag byte of its other three (30_encoding.md R116). -/
theorem flagByte_eq {b : Byte} (h : b.extractLsb' 3 5 = 0#5) : flagByte (b.getLsbD 2) (b.getLsbD 1) (b.getLsbD 0) = b := by
  rw [flagByte, ofBool_getLsbD, ofBool_getLsbD, ofBool_getLsbD, ← h, extractLsb'_append b 2 1, extractLsb'_append b 1 1,
    extractLsb'_append b 0 1]
  exact BitVec.extractLsb'_eq_self

/-- A byte with its seven high bits zero is the flag byte of its lowest bit (30_encoding.md R116). -/
theorem flagByte_eq_of_single {b : Byte} (h : b.extractLsb' 1 7 = 0#7) : flagByte false false (b.getLsbD 0) = b := by
  have hbits : b.extractLsb' 1 7 ++ b.extractLsb' 0 1 = b := (extractLsb'_append b 0 1 7).trans BitVec.extractLsb'_eq_self
  rw [flagByte, ofBool_getLsbD]
  conv_rhs => rw [← hbits, h]
  rfl

/-- A byte with its high half zero is the 4-bit code it holds (30_encoding.md R116). -/
theorem subField_eq {b : Byte} (h : b.extractLsb' 4 4 = 0#4) : (0#4 ++ b.extractLsb' 0 4 : BitVec (4 + 4)) = b := by
  rw [← h, extractLsb'_append b 0 4]
  exact BitVec.extractLsb'_eq_self

/-- A record is answered exactly when its fixed fields hold what its kind fixes. -/
@[simp] theorem whenFixed_eq_ok {ok : Bool} {i j : Instr} : whenFixed ok i = .ok j ↔ ok = true ∧ i = j := by
  cases ok <;> simp [whenFixed]

/-- `h` and `body` are the header and the body words of the record operation `i` (30_encoding.md R115, R116). -/
def IsRecordOf (h : Header) (body : List Word) (i : Instr) : Prop := recordHeader i = some h ∧ recordBody i = body

/-- A record operation is written as its header word and its body words (30_encoding.md R114). -/
theorem encode_of_isRecordOf {h : Header} {body : List Word} {i : Instr} (hi : IsRecordOf h body i) :
    encode i = .record (h.word :: body) := by
  obtain ⟨hheader, rfl⟩ := hi
  cases i
  case clear | progress | endRun | owReset | owByte | owBusError | jtState | jtShiftTdi | jtShiftTdo | uaDataRx | uaDataTx | uaEvent =>
    simp only [encode, recordWords, hheader]
  all_goals cases hheader

/-- A JT_SHIFT record with a body of any length (30_encoding.md R116). -/
theorem isRecordOf_jtShift {h : Header} {body : List Word} {i : Instr} (hkind : h.kind = 0x21#8)
    (hlen : h.len = lenField body.length)
    (hd : (if h.sub = 0#8 then whenFixed (h.flags == idxFlag) (.jtShiftTdi h.chan body)
      else whenFixed (h.sub == 1#8 && h.flags == idxFlag) (.jtShiftTdo h.chan body)) = .ok i) : IsRecordOf h body i := by
  obtain ⟨kind, chan, sub, flags, len⟩ := h
  dsimp only at hkind hlen hd
  subst hkind hlen
  split_ifs at hd with hsub
  · obtain ⟨hflags, rfl⟩ := whenFixed_eq_ok.1 hd
    obtain rfl := eq_of_beq hflags
    subst hsub
    exact ⟨rfl, rfl⟩
  · obtain ⟨hfixed, rfl⟩ := whenFixed_eq_ok.1 hd
    simp only [Bool.and_eq_true, beq_iff_eq] at hfixed
    obtain ⟨rfl, rfl⟩ := hfixed
    exact ⟨rfl, rfl⟩

/-- The direction flag chooses between the two UA_DATA records (45_emitter.md R355). -/
theorem isRecordOf_uaData (chan value : Byte) (pe fe dir : Bool) (x y : Word) :
    IsRecordOf ⟨0x30#8, chan, value, flagByte dir fe pe, lenField 2⟩ [x, y]
      (if dir then .uaDataTx chan value pe fe x y else .uaDataRx chan value pe fe x y) := by
  cases dir <;> exact ⟨rfl, rfl⟩

/-- The header of a record without a body is that of the operation it decodes to. -/
theorem isRecordOf_decodeBare {h : Header} {i : Instr} (hlen : h.len = lenField 0) (hd : decodeBare h = .ok i) :
    IsRecordOf h [] i := by
  obtain ⟨kind, chan, sub, flags, len⟩ := h
  dsimp only at hlen
  subst hlen
  simp only [decodeBare] at hd
  split at hd
  case h_1 hkind | h_2 hkind =>
    obtain ⟨-, rfl⟩ := BitVec.toNat_eq_nat.1 hkind
    simp only [whenFixed_eq_ok, Bool.and_eq_true, beq_iff_eq] at hd
    obtain ⟨⟨rfl, rfl⟩, rfl⟩ := hd
    exact ⟨rfl, rfl⟩
  case h_3 hkind => exact isRecordOf_jtShift (BitVec.eq_of_toNat_eq hkind) rfl hd
  all_goals cases hd

/-- A JT_SHIFT record of another length is that of the operation it decodes to. -/
theorem isRecordOf_decodeLong {h : Header} {body : List Word} {i : Instr} (hlen : h.len = lenField body.length)
    (hd : decodeLong h body = .ok i) : IsRecordOf h body i := by
  simp only [decodeLong] at hd
  split at hd
  case h_1 hkind => exact isRecordOf_jtShift (BitVec.eq_of_toNat_eq hkind) hlen hd
  all_goals cases hd

/-- The header of a record with two body words is that of the operation it decodes to, kind by kind: the fields a kind fixes hold
the values it fixes, and the others are the operation's. -/
theorem isRecordOf_decodePair {h : Header} {x y : Word} {i : Instr} (hlen : h.len = lenField 2)
    (hd : decodePair h x y = .ok i) : IsRecordOf h [x, y] i := by
  obtain ⟨kind, chan, sub, flags, len⟩ := h
  dsimp only at hlen
  subst hlen
  simp only [decodePair] at hd
  split at hd
  case h_6 hkind => exact isRecordOf_jtShift (BitVec.eq_of_toNat_eq hkind) rfl hd
  case h_9 | h_10 | h_11 => cases hd
  all_goals
    rename_i hkind
    obtain ⟨-, rfl⟩ := BitVec.toNat_eq_nat.1 hkind
    simp only [whenFixed_eq_ok, Bool.and_eq_true, beq_iff_eq] at hd
  case h_1 | h_3 =>
    obtain ⟨rfl, rfl⟩ := hd
    exact ⟨rfl, rfl⟩
  case h_2 =>
    obtain ⟨⟨rfl, hflags⟩, rfl⟩ := hd
    exact ⟨by rw [recordHeader, flagByte_eq_of_single hflags], rfl⟩
  case h_4 =>
    obtain ⟨⟨rfl, rfl⟩, rfl⟩ := hd
    exact ⟨rfl, rfl⟩
  case h_5 =>
    obtain ⟨⟨hsub, rfl⟩, rfl⟩ := hd
    exact ⟨by rw [recordHeader, TapState.code_ofCode, subField_eq hsub], rfl⟩
  case h_7 =>
    obtain ⟨hflags, rfl⟩ := hd
    have hua := isRecordOf_uaData chan sub (flags.getLsbD 0) (flags.getLsbD 1) (flags.getLsbD 2) x y
    rwa [flagByte_eq hflags] at hua
  case h_8 =>
    obtain ⟨⟨hsub, rfl⟩, rfl⟩ := hd
    exact ⟨by rw [recordHeader, subField_eq hsub], rfl⟩

/-- A record that decodes is the one its operation forms. -/
theorem encode_of_decodeRecord {ws : Record} {i : Instr} (hd : decodeRecord ws = .ok i) : encode i = .record ws := by
  obtain ⟨w, body, rfl, hlen⟩ := decodeRecord_ok hd
  rw [← Header.word_ofWord w]
  refine encode_of_isRecordOf ?_
  simp only [decodeRecord, if_pos hlen] at hd
  split at hd
  · exact isRecordOf_decodeBare hlen hd
  · exact isRecordOf_decodePair hlen hd
  · exact isRecordOf_decodeLong hlen hd

/-! ## All formats -/

/-- Settles O4: each operation decodes from its own encoding, well formed or not. -/
theorem decodeInvertsEncode : Obligations.DecodeInvertsEncode := fun i _ => decode_encode i

/-- Settles O5, format by format: the decoder checks every bit that the operation it answers does not hold. -/
theorem encodeInvertsDecode : Obligations.EncodeInvertsDecode := by
  intro w i hd
  cases w with
  | cmd v => exact encode_of_decodeCommand hd
  | record ws => exact encode_of_decodeRecord hd
  | tap row => cases hd; exact encode_decodeTap row
  | cls code => cases hd; exact encode_decodeClass code

/-- Settles O3: each word is decoded by evaluating the decoder on it. -/
theorem writtenWordsDecode : Obligations.WrittenWordsDecode := ⟨rfl, rfl, rfl, rfl, rfl, rfl, rfl⟩

end Sys2Proof
end

section
/-!
PROOFS. Family 30_encoding.md, the 32 rows of the TAP transition table (30_encoding.md R121, 43_jtag_tap.md R247).
-/

namespace Sys2Proof
open Machine

/-- The array of 43_jtag_tap.md R247: the code of the next state, by row. -/
def nextCodes : List Nat :=
  [1, 0, 1, 2, 3, 9, 4, 5, 4, 5, 6, 8, 6, 7, 4, 8, 1, 2, 10, 0, 11, 12, 11, 12, 13, 15, 13, 14, 11, 15, 1, 2]

/-- The state the array names for a row. -/
def tapNext (t : TapState) (tms : Bool) : TapState :=
  TapState.ofCode (BitVec.ofNat 4 (nextCodes.getD (2 * t.code.toNat + tms.toNat) 0))

/-- A row moves the controller to the state the array names for it, whatever state the controller was in (log 9). -/
theorem exec_tapRow (t : TapState) (tms : Bool) (s : State) : exec (tapRow t tms) s = .next (tapMove (tapNext t tms) s) := by
  cases t <;> cases tms <;> rfl

/-- The array holds a state's code in each of its 32 rows (43_jtag_tap.md R247). -/
theorem nextCodes_row (t : TapState) (tms : Bool) :
    nextCodes[2 * t.code.toNat + tms.toNat]? = some (tapNext t tms).code.toNat := by
  cases t <;> cases tms <;> rfl

/-- The index of a row in plain arithmetic (30_encoding.md R121). -/
theorem tapIndex_eq (t : TapState) (tms : Bool) : tapIndex t tms = BitVec.ofNat 5 (2 * t.code.toNat + tms.toNat) := by
  cases t <;> cases tms <;> rfl

/-- An operation written as a row index is the operation of that row. -/
theorem eq_decodeTap_of_encode {i : Instr} {row : BitVec 5} (h : encode i = .tap row) : i = decodeTap row := by
  have hd := decode_encode i
  rw [h] at hd
  exact (Except.ok.inj hd).symm

/-- Settles O23: each row goes where the array says, and an operation written as an index is the row the index decodes to. -/
theorem tapRowsFollowTable : Obligations.TapRowsFollowTable := by
  refine ⟨fun t tms s => ⟨tapNext t tms, ?_, nextCodes_row t tms, exec_tapRow t tms s⟩,
    fun i row h => ⟨_, _, eq_decodeTap_of_encode h⟩⟩
  rw [encode_tapRow, tapIndex_eq]

end Sys2Proof
end

section
/-!
PROOFS. Family 30_encoding.md, the bit words of a JT_SHIFT record (30_encoding.md R117).
-/

namespace Sys2Proof.Machine

/-- Bit `j` of a bit-string's number is its `j`-th character from the right (30_encoding.md R117). -/
theorem bitsNumber_testBit (bits : List Bool) (j : Nat) : (bitsNumber bits).testBit j = bits.reverse.getD j false := by
  induction bits with
  | nil => simp [bitsNumber]
  | cons b bits ih =>
    rw [bitsNumber_cons, List.reverse_cons, Nat.mul_comm, Nat.testBit_two_pow_mul_add _ (bitsNumber_lt bits)]
    split_ifs with hj
    · rw [ih, List.getD_append _ _ _ _ (by simpa using hj)]
    · rw [List.getD_append_right _ _ _ _ (by simpa using hj), List.length_reverse]
      cases hk : j - bits.length with
      | zero => cases b <;> rfl
      | succ k => cases b <;> simp [Nat.testBit_succ]

/-- Position `r` of word `k` of a number holds its bit `64 * k + r`. -/
theorem natWord_shiftRight_getLsbD (n k : Nat) {r : Nat} (hr : r < 64) :
    (natWord (n >>> (64 * k))).getLsbD r = n.testBit (64 * k + r) := by
  rw [natWord, BitVec.getLsbD_ofNat, Nat.testBit_shiftRight]
  simp [hr]

/-- Bit `j` of a string stands in bit word `j / 64` at position `j % 64`; past the last word both are zero (30_encoding.md R117). -/
theorem bitWords_getLsbD (bits : List Bool) (j : Nat) :
    ((bitWords bits).getD (j / 64) 0#64).getLsbD (j % 64) = (bitsNumber bits).testBit j := by
  by_cases hj : j / 64 < bitWordCount bits.length
  · have hword : (bitWords bits).getD (j / 64) 0#64 = natWord (bitsNumber bits >>> (64 * (j / 64))) := by
      simp [bitWords, hj]
    rw [hword, natWord_shiftRight_getLsbD _ _ (Nat.mod_lt j (by decide)), Nat.div_add_mod]
  · have hlt : bitsNumber bits < 2 ^ j :=
      (bitsNumber_lt bits).trans_le (Nat.pow_le_pow_right (by decide) (by unfold bitWordCount at hj; omega))
    rw [List.getD_eq_default _ _ (by simpa using hj), Nat.testBit_lt_two_pow hlt]
    simp

/-- The number a list of words forms, the first word least significant. -/
def wordsNumber (ws : List Word) : Nat := (ws.map BitVec.toNat).foldr (fun w acc => w + 2 ^ 64 * acc) 0

/-- The 64-bit digits of a number that fits `count` words form the number. -/
theorem wordsNumber_digits (count n : Nat) (h : n < 2 ^ (64 * count)) :
    wordsNumber ((List.range count).map (fun k => natWord (n >>> (64 * k)))) = n := by
  induction count generalizing n with
  | zero =>
    obtain rfl : n = 0 := by simpa using h
    rfl
  | succ count ih =>
    have hrest : n >>> 64 < 2 ^ (64 * count) := by
      rw [Nat.shiftRight_eq_div_pow, Nat.div_lt_iff_lt_mul (by decide), ← pow_add]
      exact h
    have hdigits : wordsNumber ((List.range (count + 1)).map (fun k => natWord (n >>> (64 * k))))
        = n % 2 ^ 64 + 2 ^ 64 * wordsNumber ((List.range count).map (fun k => natWord (n >>> 64 >>> (64 * k)))) := by
      simp [wordsNumber, List.range_succ_eq_map, natWord, Function.comp_def, ← Nat.shiftRight_add, Nat.mul_add, Nat.add_comm]
    rw [hdigits, ih _ hrest, Nat.shiftRight_eq_div_pow, Nat.mod_add_div]

/-- The bit words of a string form its number (30_encoding.md R117). -/
theorem bitWords_number (bits : List Bool) : wordsNumber (bitWords bits) = bitsNumber bits :=
  wordsNumber_digits _ _ <| (bitsNumber_lt bits).trans_le <|
    Nat.pow_le_pow_right (by decide) (by unfold bitWordCount; omega)

/-- Settles O7: the string and its bit words are compared through the number both stand for. -/
theorem bitWordsHoldShiftedBits : Obligations.BitWordsHoldShiftedBits := by
  intro first last bits
  refine ⟨rfl, ?_, fun j => ?_, (bitWords_number bits).symm⟩
  · rw [shiftBody, List.length_cons, List.length_cons, List.length_cons, bitWords_length, bitWordCount]
    omega
  · rw [← bitsNumber_testBit, ← bitWords_getLsbD, shiftBody, Nat.add_comm]
    rfl

end Sys2Proof.Machine
end

section
/-!
PROOFS. Family 40_edge_scanner.md: the times of an index window hold exactly its entries (R156).
-/

namespace Sys2Proof.Machine

/-- In a rising capture the times of two entries are ordered as their indices are (10_state.md R22). -/
theorem Memory.wf_time_lt_iff {m : Memory} (h : m.wf = true) {i j : Nat} {x y : Sample}
    (hx : m[i]? = some x) (hy : m[j]? = some y) : x.time < y.time ↔ i < j :=
  ⟨Memory.wf_idx_lt h hx hy, fun hij => Memory.wf_lt h hij hx hy⟩

/-- So are they where the two entries may be the same one. -/
theorem Memory.wf_time_le_iff {m : Memory} (h : m.wf = true) {i j : Nat} {x y : Sample}
    (hx : m[i]? = some x) (hy : m[j]? = some y) : x.time ≤ y.time ↔ i ≤ j := by
  rw [← not_lt, Memory.wf_time_lt_iff h hy hx, not_lt]

/-- The end of a window (40_edge_scanner.md R156): the time of entry `e`, or the time unit after the last entry where there is no
entry `e`. -/
inductive IsWindowEnd (m : Memory) (e : Nat) : Int → Prop
  | entry {y : Sample} : m[e]? = some y → IsWindowEnd m e y.time
  | afterLast {y : Sample} : e = m.length → m[m.length - 1]? = some y → IsWindowEnd m e (y.time + 1)

/-- WINDOW answers the time of its first entry and its end. -/
theorem window_spec {m : Memory} {s e : Nat} (hs : s < e) (he : e ≤ m.length) :
    ∃ x t1, m[s]? = some x ∧ IsWindowEnd m e t1 ∧ window m s e = some (x.time, t1) := by
  obtain ⟨x, y, hx, hy, hw⟩ := window_eq_some hs he
  refine ⟨x, _, hx, ?_, hw⟩
  split_ifs at hy ⊢ with hinside
  · exact .entry hy
  · exact .afterLast (by omega) hy

/-- The entries of a rising capture before the end of a window are those with an index below `e`. -/
theorem IsWindowEnd.time_lt_iff {m : Memory} (hwf : m.wf = true) {e : Nat} {t1 : Int} (hend : IsWindowEnd m e t1)
    {i : Nat} {x : Sample} (hx : m[i]? = some x) : x.time < t1 ↔ i < e := by
  cases hend with
  | entry hy => exact Memory.wf_time_lt_iff hwf hx hy
  | afterLast he hy =>
    obtain ⟨hi, -⟩ := List.getElem?_eq_some_iff.1 hx
    rw [Int.lt_add_one_iff, Memory.wf_time_le_iff hwf hx hy]
    omega

/-- Where the memory has an entry `e`, the window ends at its time. -/
theorem IsWindowEnd.eq_time {m : Memory} {e : Nat} {t1 : Int} (hend : IsWindowEnd m e t1) {x : Sample}
    (hx : m[e]? = some x) : t1 = x.time := by
  cases hend with
  | entry hy => rw [Option.some.inj (hx.symm.trans hy)]
  | afterLast he hy => simp [he] at hx

/-- A window up to the end of the memory ends one time unit after the last entry. -/
theorem IsWindowEnd.eq_afterLast {m : Memory} {e : Nat} {t1 : Int} (hend : IsWindowEnd m e t1) (he : e = m.length)
    {x : Sample} (hx : m[m.length - 1]? = some x) : t1 = x.time + 1 := by
  cases hend with
  | entry hy => simp [he] at hy
  | afterLast _ hy => rw [Option.some.inj (hx.symm.trans hy)]

/-- Settles O28: on a rising capture an entry is from `tStart` on when its index is at least `S`, and before `tEnd` when its index is
below `E`; the start itself is before the end because `S < E`. -/
theorem windowHoldsItsEntries : Obligations.WindowHoldsItsEntries := by
  intro m lo hi hwf hlo hhi
  obtain ⟨first, t1, hfirst, hend, hwindow⟩ := window_spec hlo hhi
  refine ⟨first.time, t1, hwindow, fun x hx => ?_, fun x => hend.eq_time, fun x he => hend.eq_afterLast he,
    (hend.time_lt_iff hwf hfirst).2 hlo, fun i x hx => ?_⟩
  · rw [Option.some.inj (hfirst.symm.trans hx)]
  · exact and_congr (Memory.wf_time_le_iff hwf hfirst hx) (hend.time_lt_iff hwf hx)

end Sys2Proof.Machine
end

section
/-!
PROOFS. Family 41_timing_classifier.md: the model's integer arithmetic on fractions and nanoseconds read as exact rationals of
microseconds; the unit conversions (R172), the frame lengths (R173, R174) and the pulse classes (R175).
-/

namespace Sys2Proof.Machine

/-- The rational a fraction stands for. -/
def Frac.val (w : Frac) : ℚ := (w.num : ℚ) / w.den

/-- The cross-multiplied lower test compares the width with the bound, both in microseconds. -/
theorem Frac.atLeast_iff {w : Frac} (hden : 0 < w.den) (ns : Nat) : w.atLeast ns = true ↔ (ns : ℚ) / 1000 ≤ w.val := by
  rw [Frac.val, div_le_div_iff₀ (by norm_num) (by exact_mod_cast hden), Frac.atLeast, decide_eq_true_eq]
  norm_cast

/-- So does the upper test. -/
theorem Frac.atMost_iff {w : Frac} (hden : 0 < w.den) (ns : Nat) : w.atMost ns = true ↔ w.val ≤ (ns : ℚ) / 1000 := by
  rw [Frac.val, div_le_div_iff₀ (by exact_mod_cast hden) (by norm_num), Frac.atMost, decide_eq_true_eq]
  norm_cast

/-- Where the lower test fails, the width lies below the bound. -/
theorem Frac.not_atLeast_iff {w : Frac} (hden : 0 < w.den) (ns : Nat) :
    (!w.atLeast ns) = true ↔ w.val < (ns : ℚ) / 1000 := by
  rw [Bool.not_eq_true', ← Bool.not_eq_true, Frac.atLeast_iff hden, not_le]

/-- A rate other than 0 is positive as a rational. -/
theorem rate_pos {rate : Word} (hrate : rate ≠ 0#64) : (0 : ℚ) < rate.toNat :=
  Nat.cast_pos.2 (Nat.pos_of_ne_zero fun h => hrate (BitVec.eq_of_toNat_eq h))

/-- US is exact (41_timing_classifier.md R172). -/
theorem us_val (rate : Word) (dt : Int) : (us rate dt).val = (dt : ℚ) * 1000000 / (rate.toNat : ℚ) := by
  simp [us, Frac.val]

/-- TICKS rounds down the exact number of timestamp units (41_timing_classifier.md R172). -/
theorem ticksOf_eq_floor (rate : Word) (u : Frac) : ticksOf rate u = ⌊u.val * (rate.toNat : ℚ) / 1000000⌋ := by
  have hquot : u.val * (rate.toNat : ℚ) / 1000000
      = ((u.num * rate.toNat : Int) : ℚ) / ((u.den * 1000000 : Nat) : ℚ) := by
    push_cast
    rw [Frac.val, div_mul_eq_mul_div, div_div]
  rw [hquot, Rat.floor_intCast_div_natCast, ticksOf]
  norm_cast

/-- TICKS undoes US: the product it rounds is the integer `dt` itself. -/
theorem ticksOf_us {rate : Word} (hrate : rate ≠ 0#64) (dt : Int) : ticksOf rate (us rate dt) = dt := by
  have hpos := rate_pos hrate
  have hexact : (us rate dt).val * (rate.toNat : ℚ) / 1000000 = dt := by
    rw [us_val]
    field_simp
  rw [ticksOf_eq_floor, hexact, Int.floor_intCast]

/-- US after TICKS loses at most what TICKS rounds off. -/
theorem us_ticksOf_le {rate : Word} (hrate : rate ≠ 0#64) (u : Frac) : (us rate (ticksOf rate u)).val ≤ u.val := by
  have hfloor : (ticksOf rate u : ℚ) ≤ u.val * (rate.toNat : ℚ) / 1000000 := by
    rw [ticksOf_eq_floor]
    exact Int.floor_le _
  rw [us_val, div_le_iff₀ (rate_pos hrate)]
  exact (le_div_iff₀ (by norm_num)).1 hfloor

/-- TICKS of a length in nanoseconds is TICKS of its microseconds: no length is negative, so the natural number it is held in loses
nothing. -/
theorem ticks_eq_ticksOf (rate : Word) (ns : Nat) : (ticks rate ns : Int) = ticksOf rate ⟨ns, 1000⟩ :=
  Int.toNat_of_nonneg (Int.ediv_nonneg (by positivity) (by positivity))

/-- One microsecond less in natural nanoseconds stops at 0, as a negative length does in R173 and R174. -/
theorem microsecondLess_eq (ns : Nat) : ((ns - 1000 : Nat) : ℚ) / 1000 = max 0 ((ns : ℚ) / 1000 - 1) := by
  have hcast : ((ns - 1000 : Nat) : ℚ) = max 0 ((ns : ℚ) - 1000) := by
    rcases le_total ns 1000 with hle | hle
    · have : (ns : ℚ) ≤ 1000 := by exact_mod_cast hle
      rw [Nat.sub_eq_zero_of_le hle, max_eq_left (by linarith), Nat.cast_zero]
    · have : (1000 : ℚ) ≤ ns := by exact_mod_cast hle
      rw [Nat.cast_sub hle, max_eq_right (by linarith), Nat.cast_ofNat]
  rw [hcast, ← max_div_div_right (by norm_num), zero_div, sub_div, div_self (by norm_num)]

/-- OW.BITFRAME in microseconds (41_timing_classifier.md R173). -/
theorem bitFrame_microseconds (p : Profile) : (bitFrame p : ℚ) / 1000
    = max 0 (max ((p.a.min : ℚ) / 1000 + (p.b.min : ℚ) / 1000) ((p.c.min : ℚ) / 1000 + (p.d.min : ℚ) / 1000) - 1) := by
  unfold bitFrame
  rw [microsecondLess_eq, Nat.cast_max, ← max_div_div_right (by norm_num), Nat.cast_add, Nat.cast_add, add_div, add_div]

/-- OW.RESETFRAME in microseconds (41_timing_classifier.md R174). -/
theorem resetFrame_microseconds (p : Profile) : (resetFrame p : ℚ) / 1000
    = max 0 ((p.g.min : ℚ) / 1000 + (p.h.min : ℚ) / 1000 + (p.i.min : ℚ) / 1000 + (p.j.min : ℚ) / 1000 - 1) := by
  unfold resetFrame
  rw [microsecondLess_eq]
  simp only [Nat.cast_add, add_div]

/-- Settles O26: each Boolean test of the model is the comparison of R175, so the two chains of tests agree branch by branch. -/
theorem classifierTestsInOrder : Obligations.ClassifierTestsInOrder := by
  rintro p num den w hden rfl
  have hval : (num : ℚ) / den = (⟨num, den⟩ : Frac).val := rfl
  have hden' : 0 < (⟨num, den⟩ : Frac).den := hden
  simp only [classify, hval, Bool.and_eq_true, Frac.atLeast_iff hden', Frac.atMost_iff hden', Frac.not_atLeast_iff hden',
    Nat.cast_add, add_div]

/-- Settles O27: the conversions from the two laws of US and TICKS, the frame lengths from nanoseconds to microseconds. -/
theorem unitConversionsAreExact : Obligations.UnitConversionsAreExact := by
  refine ⟨fun rate dt _ => us_val rate dt, fun rate u _ => ticksOf_eq_floor rate u, fun rate dt hrate => ticksOf_us hrate dt,
    fun rate u hrate _ => us_ticksOf_le hrate u, fun rate ns => ?_, bitFrame_microseconds, resetFrame_microseconds⟩
  rw [ticks_eq_ticksOf, ticksOf_eq_floor]
  simp [Frac.val]

end Sys2Proof.Machine
end

section
/-!
PROOFS. Words a rule forms (45_emitter.md, 42_onewire.md): the words of each record in plain arithmetic, and what the step after the
rule does with the front word (log 7).
-/

namespace Sys2Proof.Machine

/-! ## Formed words in plain arithmetic (30_encoding.md R114 to R116, R122) -/

/-- One formed operation waits in front of the words that waited before. -/
theorem form_singleton (i : Instr) (s : State) : form [i] s = { s with ops := encode i :: s.ops } := rfl

theorem encode_clear (chan : Byte) : encode (.clear chan) = .record [headerWord 0x01 chan.toNat 0 0 0] :=
  congrArg (OpWord.record [·]) (Header.word_eq _)

theorem encode_progress (percent : Byte) : encode (.progress percent) = .record [headerWord 0x02 0xFF percent.toNat 0 0] :=
  congrArg (OpWord.record [·]) (Header.word_eq _)

theorem encode_endRun (st code : Byte) (sym err : Word) :
    encode (.endRun st code sym err) = .record [headerWord 0x03 0xFF st.toNat code.toNat 2, sym, err] :=
  congrArg (OpWord.record [·, sym, err]) (Header.word_eq _)

/-- The flags of an OW_RESET record, as a number, are its presence bit (30_encoding.md R116). -/
theorem flagByte_toNat (present : Bool) : (flagByte false false present).toNat = present.toNat := by cases present <;> rfl

theorem encode_owReset (chan : Byte) (present : Bool) (start stop : Word) :
    encode (.owReset chan present start stop) = .record [headerWord 0x10 chan.toNat 0 present.toNat 2, start, stop] := by
  rw [← flagByte_toNat]
  exact congrArg (OpWord.record [·, start, stop]) (Header.word_eq _)

theorem encode_owByte (chan value : Byte) (start stop : Word) :
    encode (.owByte chan value start stop) = .record [headerWord 0x11 chan.toNat value.toNat 0 2, start, stop] :=
  congrArg (OpWord.record [·, start, stop]) (Header.word_eq _)

theorem encode_owBusError (chan : Byte) (start stop : Word) :
    encode (.owBusError chan start stop) = .record [headerWord 0x12 chan.toNat 0 0 2, start, stop] :=
  congrArg (OpWord.record [·, start, stop]) (Header.word_eq _)

theorem encode_classInstr (c : PulseClass) : encode (classInstr c) = .cls c.code := by cases c <;> rfl

/-- The words of an emitted PROGRESS record (45_emitter.md R347). -/
theorem recordWords_progress (percent : Byte) : recordWords (.progress percent) = [headerWord 0x02 0xFF percent.toNat 0 0] :=
  OpWord.record.inj (encode_progress percent)

/-- The words of an emitted END record (45_emitter.md R349). -/
theorem recordWords_endRun (st code : Byte) (sym err : Word) :
    recordWords (.endRun st code sym err) = [headerWord 0x03 0xFF st.toNat code.toNat 2, sym, err] :=
  OpWord.record.inj (encode_endRun st code sym err)

/-! ## Carrying out the front word -/

/-- A well-formed operation that waits in front is carried out by the next step, on the state without it. -/
theorem step_of_formed {s : State} {i : Instr} {rest : List OpWord} (hops : s.ops = encode i :: rest) (hwf : i.wf = true) :
    step s = exec i { s with ops := rest } := by
  have hread : readWord (encode i) = some i := readWord_eq_some.2 ⟨decode_encode i, hwf⟩
  simp only [step, fetch, hops, hread]

/-- The state after a front word that wrote the output side `o` of engine `e`, with the words `rest` still waiting. -/
def afterFront (e : EngineId) (rest : List OpWord) (o : EngineOut) (s : State) : State := ({ s with ops := rest } : State).setOut e o

section
variable (e : EngineId) (rest : List OpWord) (o : EngineOut) (s : State)

@[simp] theorem afterFront_ops : (afterFront e rest o s).ops = rest := setOut_ops _ _ _

@[simp] theorem afterFront_cur : (afterFront e rest o s).cur = s.cur := setOut_cur _ _ _

@[simp] theorem afterFront_out : (afterFront e rest o s).out e = o := out_setOut _ _ _

/-- The other engines stand where they stood. -/
theorem othersKept_afterFront : othersKept e s (afterFront e rest o s) := by
  cases e <;> simp [othersKept, afterFront, State.setOut]

/-- The host's side stands where it stood. -/
theorem hostSideKept_afterFront : hostSideKept s (afterFront e rest o s) := by simp [hostSideKept, afterFront]

/-- The words that wait are no part of an output side. -/
theorem out_withOps : ({ s with ops := rest } : State).out e = s.out e := by cases e <;> rfl

end

/-- A PROGRESS carried out: the progress register and the stream of the executing engine (45_emitter.md R347). -/
theorem step_of_progress {e : EngineId} {s : State} {percent : Byte} {rest : List OpWord} (hcur : s.cur = e)
    (hops : s.ops = encode (.progress percent) :: rest) (hlegal : percentLegal percent = true) :
    step s = .next (afterFront e rest { s.out e with
      progress := percent.setWidth 64
      stream := (s.out e).stream ++ [[headerWord 0x02 0xFF percent.toNat 0 0]] } s) := by
  subst hcur
  simp only [step_of_formed hops hlegal, exec, execProgress, emitProgress_eq, recordWords_progress, out_withOps, afterFront]

/-- An END carried out: the status register and the stream of the executing engine (45_emitter.md R349). -/
theorem step_of_endRun {e : EngineId} {s : State} {st : RunState} {code : FailCode} {sym err : Word} {rest : List OpWord}
    (hcur : s.cur = e) (hops : s.ops = encode (.endRun st.code code.code sym err) :: rest)
    (hst : finalStateLegal st.code = true) (hcode : endCodeLegal code.code = true) :
    step s = .next (afterFront e rest { s.out e with
      status := ⟨st, code, false⟩
      stream := (s.out e).stream ++ [[headerWord 0x03 0xFF st.code.toNat code.code.toNat 2, sym, err]] } s) := by
  subst hcur
  have hwf : (Instr.endRun st.code code.code sym err).wf = true := by simp [Instr.wf, hst, hcode]
  simp only [step_of_formed hops hwf, exec, execEndRun, RunState.ofCode_code, FailCode.ofCode_code, takeEnd_eq, recordWords_endRun,
    out_withOps, afterFront]

/-! ## Steps in a row leave the same unchanged -/

theorem othersKept.trans {e : EngineId} {s t u : State} (hst : othersKept e s t) (htu : othersKept e t u) : othersKept e s u := by
  obtain ⟨how, hjt, hua⟩ := hst
  obtain ⟨how', hjt', hua'⟩ := htu
  refine ⟨fun hne => ?_, fun hne => ?_, fun hne => ?_⟩
  · simp only [how' hne, how hne, and_self]
  · simp only [hjt' hne, hjt hne, and_self]
  · simp only [hua' hne, hua hne, and_self]

theorem hostSideKept.trans {s t u : State} (hst : hostSideKept s t) (htu : hostSideKept t u) : hostSideKept s u := by
  unfold hostSideKept at hst htu ⊢
  simp only [htu, hst, and_self]

end Sys2Proof.Machine
end

section
/-!
PROOFS. Family 42_onewire.md, the rules of the 1-Wire engine as whole next states: START (R190, R191), INIT (R192), LOOP and SCAN (R193 to
R195), the four handlers and BYTE (R197 to R201), each with the words it forms (log 7).
-/

namespace Sys2Proof.Machine

/-! ## START (42_onewire.md R190, R191) -/

/-- A mode register that holds 0 or 1 names the mode by its value (42_onewire.md R190). -/
theorem owModeOf_eq {mode : Word} (hmode : mode.toNat ≤ 1) : owModeOf mode = if mode = 0#64 then .standard else .overdrive := by
  have hcases : mode = 0#64 ∨ mode = 1#64 := by
    rw [← BitVec.toNat_inj, ← BitVec.toNat_inj, BitVec.toNat_ofNat, BitVec.toNat_ofNat]
    omega
  rcases hcases with rfl | rfl <;> rfl

/-- The channel byte of a register that names a channel holds the register's value. -/
theorem chanByte_toNat_of_namesChannel {w : Word} (h : namesChannel w) : (chanByte w).toNat = w.toNat := by
  rw [chanByte_toNat]
  exact Nat.mod_eq_of_lt (lt_of_le_of_lt h (by norm_num))

/-- The working registers an accepted START leaves, given the window's times: configuration, profile and frame lengths are latched
(42_onewire.md R190). -/
def owLatched (s : State) (t0 t1 : Int) : OwWork :=
  { s.owWork with
    winS := s.owConfig.winS.toNat
    winE := s.owConfig.winE.toNat
    line := chanByte s.owConfig.line
    mode := owModeOf s.owConfig.mode
    mask := chanMask (chanByte s.owConfig.line)
    profile := Config.owProfile (owModeOf s.owConfig.mode)
    bitTicks := ticks s.sbRate (bitFrame (Config.owProfile (owModeOf s.owConfig.mode)))
    resetTicks := ticks s.sbRate (resetFrame (Config.owProfile (owModeOf s.owConfig.mode)))
    tStart := t0
    tEnd := t1 }

/-- The state an accepted START leaves: the registers latched, OW.INIT next, and the CLEAR record waiting. -/
def owStarted (s : State) (t0 t1 : Int) : State :=
  form [.clear (chanByte s.owConfig.line)] { s with owWork := owLatched s t0 t1, owPc := .init }

/-- OW.START on an empty window keeps the times it had (42_onewire.md R191). -/
theorem owStart_of_empty {s : State} (hwin : s.owConfig.winS.toNat = s.owConfig.winE.toNat) :
    owStart s = .next (owStarted s s.owWork.tStart s.owWork.tEnd) := by
  simp only [owStart, if_neg hwin.not_lt]
  rfl

/-- OW.START on a window with entries latches its times (42_onewire.md R191). -/
theorem owStart_of_window {s : State} {t0 t1 : Int} (hlt : s.owConfig.winS.toNat < s.owConfig.winE.toNat)
    (hwin : window s.samples s.owConfig.winS.toNat s.owConfig.winE.toNat = some (t0, t1)) :
    owStart s = .next (owStarted s t0 t1) := by
  simp only [owStart, hlt, if_true, hwin]
  rfl

/-- OW.START with a legal configuration, whether or not its window has entries. -/
theorem owStart_of_legal {s : State} (h : owLegal s) :
    ∃ t0 t1, owStart s = .next (owStarted s t0 t1)
      ∧ (s.owConfig.winS.toNat < s.owConfig.winE.toNat →
        window s.samples s.owConfig.winS.toNat s.owConfig.winE.toNat = some (t0, t1))
      ∧ (s.owConfig.winS.toNat = s.owConfig.winE.toNat → t0 = s.owWork.tStart ∧ t1 = s.owWork.tEnd) := by
  obtain ⟨-, ⟨hle, hend⟩, -, -⟩ := h
  rcases hle.lt_or_eq with hlt | heq
  · obtain ⟨x, t1, -, -, hwin⟩ := window_spec hlt hend
    exact ⟨x.time, t1, owStart_of_window hlt hwin, fun _ => hwin, fun heq => absurd heq hlt.ne⟩
  · exact ⟨_, _, owStart_of_empty heq, fun hlt => absurd heq hlt.ne, fun _ => ⟨rfl, rfl⟩⟩

/-- A START that is accepted is the engine's START step on the state with the output side of R383. -/
theorem exec_startOw_of_legal {s : State} (hidle : s.owOut.status.state ≠ .running) (h : owLegal s) :
    exec .startOw s = owStart (acceptStart .ow s) := by
  have hok : owConfigOk s = true := (owConfigOk_iff s).2 h
  rcases startEngine_cases .ow (owConfigOk s) owStart s with ⟨hr, -⟩ | ⟨-, hno, -⟩ | ⟨-, -, heq⟩
  · exact absurd hr hidle
  · exact absurd (hok.symm.trans hno) (by decide)
  · exact heq

/-- Settles O11: the START step runs on the accepted state, whose configuration and capture are those of `s`. -/
theorem acceptedOneWireStartLatches : Obligations.AcceptedOneWireStartLatches := by
  intro s hidle hlegal
  obtain ⟨t0, t1, hstart, hwin, hempty⟩ := owStart_of_legal (s := acceptStart .ow s) hlegal
  have hexec := (exec_startOw_of_legal hidle hlegal).trans hstart
  obtain ⟨-, -, hline, hmode⟩ := hlegal
  have hchan := chanByte_toNat_of_namesChannel hline
  refine ⟨owLatched s t0 t1, ?_, rfl, rfl, hchan, ?_, owModeOf_eq hmode, rfl, rfl, rfl, hwin, hempty, rfl⟩
  · rw [hexec, owStarted, form_singleton, encode_clear]
    simp only [← hchan]
    rfl
  · rw [← hchan]
    rfl

/-! ## INIT (42_onewire.md R192, 60_exceptions.md R401) -/

/-- No masked channel is high where the masked value is 0 (20_memory.md R83). -/
theorem active_eq_false {val mask : ChannelBits} : active val mask = false ↔ val &&& mask = 0#32 := by simp [active]

theorem active_eq_true {val mask : ChannelBits} : active val mask = true ↔ val &&& mask ≠ 0#32 := by simp [active]

/-- FIRST_ACTIVE answers nothing where no entry of the window has a masked channel high (40_edge_scanner.md R155). -/
theorem firstActive_eq_none_of_low {m : Memory} {s e : Nat} {mask : ChannelBits}
    (hlow : ∀ i x, s ≤ i → i < e → m[i]? = some x → x.val &&& mask = 0#32) : firstActive m s e mask = none := by
  rw [Option.eq_none_iff_forall_ne_some]
  intro h hfound
  obtain ⟨hs, he, hx, hhigh, -⟩ := (firstActive_eq_some m s e mask h).1 hfound
  exact active_eq_true.1 hhigh (hlow h.idx _ hs he hx)

/-- OW.INIT with an idle entry: the accumulator is cleared and the decode starts at the entry. -/
theorem owInit_of_idle {s : State} {h : Hit} (hfound : firstActive s.samples s.owWork.winS s.owWork.winE s.owWork.mask = some h) :
    owInit s = .next { s with
      owWork := { s.owWork with bitCount := 8, byteValue := 0#8, byteStart := none, cursor := h.time }, owPc := .loop } := by
  simp only [owInit, hfound]

/-- OW.INIT without an idle entry forms the END record of NoIdleStateFound. -/
theorem owInit_of_noIdle {s : State} (hnone : firstActive s.samples s.owWork.winS s.owWork.winE s.owWork.mask = none) :
    owInit s = .next { s with
      owPc := .idle
      ops := encode (.endRun RunState.failed.code FailCode.noIdle.code s.owOut.symcnt s.owOut.errcnt) :: s.ops } := by
  simp only [owInit, hnone]
  rfl

/-- Settles O30: the search answers the first entry with the line high, or none; the END record of the failing run is carried out by the
step after the rule. -/
theorem oneWireInitFindsIdleOrFails : Obligations.OneWireInitFindsIdleOrFails := by
  intro s hr hpc hops
  have hturn : engineTurn .ow s = owInit { s with cur := .ow } := by rw [engineTurn_ow hr, owStep, hpc]
  refine ⟨fun i x hlo hhi hx hhigh hbefore => ?_, fun hlow => ?_⟩
  · have hfound : firstActive s.samples s.owWork.winS s.owWork.winE s.owWork.mask = some ⟨i, x.ts, x.val⟩ :=
      (firstActive_eq_some _ _ _ _ _).2 ⟨hlo, hhi, hx, active_eq_true.2 hhigh,
        fun j hj hji y hy => active_eq_false.2 (hbefore j y hj hji hy)⟩
    rw [hturn, owInit_of_idle (s := { s with cur := .ow }) hfound]
    rfl
  · refine ⟨_, hturn.trans (owInit_of_noIdle (s := { s with cur := .ow }) (firstActive_eq_none_of_low hlow)), ?_⟩
    rw [step_of_endRun (e := .ow) rfl rfl rfl rfl]
    simp only [hops]
    rfl

/-! ## LOOP and SCAN (42_onewire.md R193, R194) -/

/-- OW.LOOP without a pending CANCEL: another pulse is looked for while the cursor is before the end. -/
theorem owLoop_eq {s : State} (hpending : s.owOut.status.cancelPending = false) :
    owLoop s = .next { s with owPc := if s.owWork.cursor < s.owWork.tEnd then .scan else .done } := by
  simp only [owLoop, hpending, Bool.false_eq_true, if_false]
  split_ifs <;> rfl

/-- OW.SCAN without another falling edge ends the run. -/
theorem owScan_of_none {s : State} (hnone : findEdge s.samples s.owWork.cursor s.owWork.tEnd s.owWork.mask .falling = none) :
    owScan s = .next { s with owPc := .done } := by simp only [owScan, hnone]

/-- OW.SCAN on a pulse from the falling edge `a` to `r` forms the class of its width. -/
theorem owScan_of_pulse {s : State} {a : Hit} {r : Int}
    (hfall : findEdge s.samples s.owWork.cursor s.owWork.tEnd s.owWork.mask .falling = some a)
    (hrise : (∃ b, findEdge s.samples a.time s.owWork.tEnd s.owWork.mask .rising = some b ∧ r = b.time)
      ∨ (findEdge s.samples a.time s.owWork.tEnd s.owWork.mask .rising = none ∧ r = s.owWork.tEnd)) :
    owScan s = .next { s with
      owWork := { s.owWork with f := a.time, r := r }
      ops := .cls (classify s.owWork.profile (us s.sbRate (r - a.time))).code :: s.ops } := by
  rcases hrise with ⟨b, hb, rfl⟩ | ⟨hb, rfl⟩
  · simp only [owScan, hfall, hb, form_singleton, encode_classInstr]
  · simp only [owScan, hfall, hb, form_singleton, encode_classInstr]

/-- Settles O31: the rules of the two steps, on the state with the 1-Wire engine executing. -/
theorem oneWireScanClassifiesNextPulse : Obligations.OneWireScanClassifiesNextPulse := by
  intro s hr
  refine ⟨fun hpc hpending => ?_, fun hpc hnone => ?_, fun a r hpc hfall hrise => ?_⟩
  · rw [engineTurn_ow hr, owStep, hpc]
    exact owLoop_eq hpending
  · rw [engineTurn_ow hr, owStep, hpc]
    exact owScan_of_none hnone
  · rw [engineTurn_ow hr, owStep, hpc]
    exact owScan_of_pulse hfall hrise

/-! ## The handlers (42_onewire.md R197 to R201) -/

/-- OW.RESET, with `c` one reset frame after the falling edge (42_onewire.md R197). -/
theorem owReset_eq {s : State} {c : Int} (hc : c = s.owWork.f + s.owWork.resetTicks) :
    owReset s = .next { s with
      owPc := .progress
      owWork := { s.owWork with bitCount := 8, byteValue := 0#8, byteStart := none, cursor := c }
      ops := .record [headerWord 0x10 s.owWork.line.toNat 0
          (presence s.samples s.sbRate s.owWork.mask s.owWork.profile s.owWork.f (min c s.owWork.tEnd)).toNat 2,
        intWord s.owWork.f, intWord s.owWork.r] :: s.ops } := by
  subst hc
  simp only [owReset, form_singleton, encode_owReset]

/-- OW.UNKNOWN, with `t` the start of the byte in progress, or of the pulse when there is none (42_onewire.md R200). -/
theorem owUnknown_eq {s : State} {t : Int}
    (ht : (s.owWork.bitCount < 8 ∧ s.owWork.byteStart = some t) ∨ (8 ≤ s.owWork.bitCount ∧ t = s.owWork.f)) :
    owUnknown s = .next { s with
      owPc := .progress
      owWork := { s.owWork with bitCount := 8, byteValue := 0#8, byteStart := none, cursor := s.owWork.f }
      ops := .record [headerWord 0x12 s.owWork.line.toNat 0 0 2, intWord t, intWord t] :: s.ops } := by
  have htime : (if s.owWork.bitCount < 8 then s.owWork.byteStart.getD s.owWork.f else s.owWork.f) = t := by
    rcases ht with ⟨hlt, hstart⟩ | ⟨hle, rfl⟩
    · rw [if_pos hlt, hstart, Option.getD_some]
    · rw [if_neg (not_lt.2 hle)]
  simp only [owUnknown, htime, form_singleton, encode_owBusError]

/-- Settles O32: the rules of the two handlers, on the state with the 1-Wire engine executing. -/
theorem oneWireResetAndUnknownHandlers : Obligations.OneWireResetAndUnknownHandlers := by
  intro s hr
  refine ⟨fun c hpc hc => ?_, fun t hpc ht => ?_⟩
  · rw [engineTurn_ow hr, owStep, hpc]
    exact owReset_eq hc
  · rw [engineTurn_ow hr, owStep, hpc]
    exact owUnknown_eq ht

/-- A bit that does not complete a byte: the accumulator takes it in, and the first bit latches the byte's start (42_onewire.md R198,
R199). -/
theorem owBit_of_more (bit : Bool) {s : State} (hmore : s.owWork.bitCount ≠ 1) :
    owBit bit s = .next { s with
      owPc := .progress
      owWork := { s.owWork with
        byteStart := if s.owWork.bitCount = 8 then some s.owWork.f else s.owWork.byteStart
        byteValue := shiftInBit s.owWork.byteValue bit
        bitCount := s.owWork.bitCount - 1
        cursor := s.owWork.f + s.owWork.bitTicks } } := by
  simp only [owBit, hmore, if_false]

/-- The bit that completes a byte: OW.BYTE forms its symbol and clears the accumulator (42_onewire.md R201). -/
theorem owBit_of_last (bit : Bool) {s : State} {t0 : Int} (hlast : s.owWork.bitCount = 1) (hstart : s.owWork.byteStart = some t0) :
    owBit bit s = .next { s with
      owPc := .progress
      owWork := { s.owWork with
        bitCount := 8, byteValue := 0#8, byteStart := none, cursor := s.owWork.f + s.owWork.bitTicks }
      ops := .record [headerWord 0x11 s.owWork.line.toNat (shiftInBit s.owWork.byteValue bit).toNat 0 2,
        intWord t0, intWord (s.owWork.f + s.owWork.bitTicks)] :: s.ops } := by
  simp only [owBit, hlast, if_true, hstart, form_singleton, encode_owByte]
  rfl

/-- OW.ONE and OW.ZERO are the two values of one rule (42_onewire.md R198, R199). -/
theorem engineTurn_of_bit {s : State} {bit : Bool} (hr : s.owOut.status.state = .running)
    (hpc : s.owPc = if bit then .one else .zero) : engineTurn .ow s = owBit bit { s with cur := .ow } := by
  rw [engineTurn_ow hr, owStep, hpc]
  cases bit <;> rfl

/-- Settles O33: both handlers are the rule of a bit, which the count of bits still missing divides in two. -/
theorem oneWireBitHandlers : Obligations.OneWireBitHandlers := by
  rintro s bit v c hr hpc rfl rfl
  rw [engineTurn_of_bit hr hpc]
  exact ⟨fun htwo _ => owBit_of_more bit (s := { s with cur := .ow }) (show s.owWork.bitCount ≠ 1 by omega),
    fun t0 hlast hstart => owBit_of_last bit (s := { s with cur := .ow }) hlast hstart⟩

/-- Settles O25: each class has its own arm, and the arm sets the handler. -/
theorem pulseClassSelectsHandler : Obligations.PulseClassSelectsHandler := fun _ => ⟨rfl, rfl, rfl, rfl⟩

/-! ## Eight bits make a byte (42_onewire.md R199) -/

/-- One more bit enters at bit 7, and the bits held move down by one. -/
theorem shiftInBit_getLsbD (v : Byte) (b : Bool) {k : Nat} (hk : k < 8) :
    (shiftInBit v b).getLsbD k = if k = 7 then b else v.getLsbD (k + 1) := by
  have hnew : (if b then 0x80#8 else 0#8).getLsbD k = (decide (k = 7) && b) := by
    cases b <;> interval_cases k <;> rfl
  have hold : (v >>> 1).getLsbD 7 = false := by simp
  rw [shiftInBit, BitVec.getLsbD_or, hnew]
  split_ifs with h7
  · rw [h7, hold, Bool.false_or]
    rfl
  · rw [BitVec.getLsbD_ushiftRight, Nat.add_comm, decide_eq_false h7, Bool.false_and, Bool.or_false]

/-- After any number of bits, bit `k` is the one that many places up in what was held, or else the one that came in there. -/
theorem foldl_shiftInBit_getLsbD (bits : List Bool) (v : Byte) {k : Nat} (hk : k < 8) :
    (bits.foldl shiftInBit v).getLsbD k
      = if k + bits.length < 8 then v.getLsbD (k + bits.length) else bits.getD (k + bits.length - 8) false := by
  induction bits generalizing v with
  | nil => rw [List.foldl_nil, List.length_nil, Nat.add_zero, if_pos hk]
  | cons b bits ih =>
    rw [List.foldl_cons, ih, List.length_cons, ← Nat.add_assoc]
    rcases lt_trichotomy (k + bits.length) 7 with hlt | heq | hgt
    · rw [if_pos (by omega), if_pos (by omega), shiftInBit_getLsbD v b (by omega), if_neg hlt.ne]
    · rw [if_pos (by omega), if_neg (by omega), shiftInBit_getLsbD v b (by omega), if_pos heq, heq]
      rfl
    · rw [if_neg (by omega), if_neg (by omega), show k + bits.length + 1 - 8 = k + bits.length - 8 + 1 by omega,
        List.getD_cons_succ]

/-- Settles O34: after eight bits nothing of the old byte is left, and bit `k` is the bit that came in at place `k`. -/
theorem eightBitsAssembleFirstBitLowest : Obligations.EightBitsAssembleFirstBitLowest := by
  intro bits v hlen k hk
  rw [foldl_shiftInBit_getLsbD bits v hk, if_neg (by omega), hlen, Nat.add_sub_cancel]

/-! ## Presence (42_onewire.md R196) -/

/-- FIND_EDGE answers a time with some property exactly when the first edge strictly inside the range has it (40_edge_scanner.md R152). -/
theorem exists_findEdge_iff (m : Memory) (t0 t1 : Int) (mask : ChannelBits) (dir : EdgeDir) (good : Int → Prop) :
    (∃ h, findEdge m t0 t1 mask dir = some h ∧ good h.time) ↔
      ∃ i x, edgeWithin m t0 t1 mask dir i x ∧ (∀ k z, k < i → ¬edgeWithin m t0 t1 mask dir k z) ∧ good x.time := by
  constructor
  · rintro ⟨h, hfound, hgood⟩
    obtain ⟨hedge, hfirst⟩ := (findEdge_eq_some m t0 t1 mask dir h).1 hfound
    exact ⟨h.idx, ⟨h.ts, h.val⟩, hedge, fun k z hk => hfirst k hk z, hgood⟩
  · rintro ⟨i, x, hedge, hfirst, hgood⟩
    exact ⟨⟨i, x.ts, x.val⟩, (findEdge_eq_some m t0 t1 mask dir _).2 ⟨hedge, fun k hk z => hfirst k z hk⟩, hgood⟩

/-- PRESENCE is an answer of each of the two searches, the second narrow enough. -/
theorem presence_iff (m : Memory) (rate : Word) (mask : ChannelBits) (p : Profile) (f wEnd : Int) :
    presence m rate mask p f wEnd = true ↔
      ∃ a, findEdge m f wEnd mask .rising = some a
        ∧ ∃ b, findEdge m a.time wEnd mask .falling = some b ∧ presentWidth p (us rate (b.time - a.time)) = true := by
  unfold presence
  cases hrise : findEdge m f wEnd mask .rising with
  | none => simp
  | some a => cases hfall : findEdge m a.time wEnd mask .falling <;> simp [hfall]

/-- PRESENT compares the width in microseconds with `iMax` (41_timing_classifier.md R181). -/
theorem presentWidth_us_iff {rate : Word} (hrate : rate ≠ 0#64) (p : Profile) (dt : Int) :
    presentWidth p (us rate dt) = true ↔ (dt : ℚ) * 1000000 / (rate.toNat : ℚ) ≤ (p.i.max : ℚ) / 1000 := by
  have hden : 0 < (us rate dt).den := by exact_mod_cast rate_pos hrate
  rw [presentWidth, Frac.atMost_iff hden, us_val]

/-- Settles O29: the two searches answer the first edges, and the width between them is compared exactly. -/
theorem presenceIsReleaseThenPull : Obligations.PresenceIsReleaseThenPull := by
  intro m rate mask p f wEnd hrate
  simp only [presence_iff, presentWidth_us_iff hrate]
  rw [exists_findEdge_iff m f wEnd mask .rising fun t => ∃ b, findEdge m t wEnd mask .falling = some b
    ∧ ((b.time - t : Int) : ℚ) * 1000000 / (rate.toNat : ℚ) ≤ (p.i.max : ℚ) / 1000]
  refine exists_congr fun i => exists_congr fun x => ?_
  rw [exists_findEdge_iff m x.time wEnd mask .falling fun t =>
    ((t - x.time : Int) : ℚ) * 1000000 / (rate.toNat : ℚ) ≤ (p.i.max : ℚ) / 1000]
  simp only [exists_and_left]

end Sys2Proof.Machine
end

section
/-!
PROOFS. Family 42_onewire.md with its sisters in 43_jtag_tap.md and 44_uart.md: the percentages of the progress records (42_onewire.md
R202, 43_jtag_tap.md R258, 44_uart.md R305) and the normal end of a run (R203, R259, R311).
-/

namespace Sys2Proof.Machine

/-! ## Percentages as rationals -/

/-- A quotient of integers rounded down, over a divisor that is not negative. -/
theorem floor_intCast_div (a : Int) {b : Int} (hb : 0 ≤ b) : ⌊(a : ℚ) / (b : ℚ)⌋ = a / b := by
  rw [Int.floor_div_cast_of_nonneg hb, Int.floor_intCast]

/-- The byte of a clamped percentage holds the percentage. -/
theorem ofInt_clamp_toNat {x : Int} {p : Nat} (hp : (p : Int) = max 0 (min 100 x)) : (BitVec.ofInt 8 (clamp x 0 100)).toNat = p := by
  rw [clamp, ← hp, BitVec.toNat_ofInt]
  omega

/-- The 1-Wire and the JTAG percentage: the fraction done, times 100, rounded down and clamped (42_onewire.md R202, 43_jtag_tap.md
R258). -/
theorem percentOf_toNat {part whole : Int} (hwhole : 0 ≤ whole) {p : Nat}
    (hp : (p : Int) = max 0 (min 100 ⌊(part : ℚ) * 100 / (whole : ℚ)⌋)) : (percentOf part whole).toNat = p := by
  have hfloor : ⌊(part : ℚ) * 100 / (whole : ℚ)⌋ = part * 100 / whole := by
    rw [← floor_intCast_div _ hwhole]
    push_cast
    rfl
  exact ofInt_clamp_toNat (hfloor ▸ hp)

/-- A fraction clamped to 0..1 is its numerator clamped to the whole. -/
theorem clamped_fraction_eq (part : Int) {whole : Int} (hwhole : 0 < whole) :
    max 0 (min 1 ((part : ℚ) / (whole : ℚ))) = ((clamp part 0 whole : Int) : ℚ) / (whole : ℚ) := by
  have hpos : (0 : ℚ) < whole := by exact_mod_cast hwhole
  rw [clamp, min_comm whole, Int.cast_max, Int.cast_min, Int.cast_zero, ← max_div_div_right hpos.le, ← min_div_div_right hpos.le,
    zero_div, div_self hpos.ne', min_comm]

/-- The UART percentage: lanes done and the clamped fraction of the current one, over all lanes (44_uart.md R305). -/
theorem lanePercent_toNat (j lanes : Nat) (part : Int) {whole : Int} (hwhole : 0 < whole) {p : Nat}
    (hp : (p : Int) = max 0 (min 100 ⌊((j : ℚ) + max 0 (min 1 ((part : ℚ) / (whole : ℚ)))) * 100 / (lanes : ℚ)⌋)) :
    (lanePercent j lanes part whole).toNat = p := by
  have hne : (whole : ℚ) ≠ 0 := by exact_mod_cast hwhole.ne'
  have hfloor : ⌊((j : ℚ) + max 0 (min 1 ((part : ℚ) / (whole : ℚ)))) * 100 / (lanes : ℚ)⌋
      = ((j : Int) * whole + clamp part 0 whole) * 100 / (lanes * whole) := by
    rw [← floor_intCast_div _ (by positivity), clamped_fraction_eq part hwhole]
    push_cast
    congr 1
    rw [← mul_div_mul_right _ (lanes : ℚ) hne]
    field_simp
  exact ofInt_clamp_toNat (hfloor ▸ hp)

/-! ## The progress rules -/

/-- Back to the loop of the lane: the data lanes are RX and TX (44_uart.md R305). -/
theorem laneLoop_eq (k : LaneKind) : laneLoop k = if k = .rx ∨ k = .tx then .lane else .hs := by cases k <;> rfl

/-- OW.PROGRESS with the record's percentage `p` (42_onewire.md R202). -/
theorem owProgress_eq {s : State} {p : Nat}
    (hp : (percentOf (s.owWork.cursor - s.owWork.tStart) (s.owWork.tEnd - s.owWork.tStart)).toNat = p) :
    owProgress s = .next { s with owPc := .loop, ops := .record [headerWord 0x02 0xFF p 0 0] :: s.ops } := by
  simp only [owProgress, form_singleton, encode_progress, hp]

/-- JTAG.PROGRESS with the record's percentage `p` (43_jtag_tap.md R258). -/
theorem jtProgress_eq {s : State} {p : Nat}
    (hp : (percentOf ((s.jtWork.idx : Int) - s.jtWork.winS) ((s.jtWork.winE : Int) - s.jtWork.winS)).toNat = p) :
    jtProgress s = .next { s with jtPc := .scan, ops := .record [headerWord 0x02 0xFF p 0 0] :: s.ops } := by
  simp only [jtProgress, form_singleton, encode_progress, hp]

/-- UART.PROGRESS on lane `l` with the record's percentage `p` (44_uart.md R305). -/
theorem uaProgress_eq {s : State} {l : Lane} {p : Nat} (hlane : currentLane s.uaWork = some l)
    (hp : (lanePercent s.uaWork.lane s.uaWork.lanes.length (s.uaWork.cursor - s.uaWork.tStart)
      (s.uaWork.tEnd - s.uaWork.tStart)).toNat = p) :
    uaProgress s = .next { s with
      uaPc := if l.kind = .rx ∨ l.kind = .tx then .lane else .hs
      ops := .record [headerWord 0x02 0xFF p 0 0] :: s.ops } := by
  simp only [uaProgress, hlane, form_singleton, encode_progress, hp, laneLoop_eq]

/-- Settles O35: each percentage of the model is the floor of R202, R258 or R305, and the rule forms its record. -/
theorem progressReportsFractionDone : Obligations.ProgressReportsFractionDone := by
  intro s p
  refine ⟨fun hr hpc hwin hp => ?_, fun hr hpc hwin hp => ?_, fun l hr hpc hlane hwin hp => ?_⟩
  · rw [engineTurn_ow hr, owStep, hpc]
    exact owProgress_eq (percentOf_toNat (Int.sub_nonneg_of_le hwin.le) hp)
  · rw [engineTurn_jtag hr, jtStep, hpc]
    exact jtProgress_eq (percentOf_toNat (Int.sub_nonneg_of_le (Int.ofNat_le.2 hwin.le)) (by push_cast; exact hp))
  · rw [engineTurn_uart hr, uaStep, hpc]
    exact uaProgress_eq hlane (lanePercent_toNat _ _ _ (Int.sub_pos_of_lt hwin) hp)

/-! ## The normal end of a run -/

/-- The END step with DONE forms PROGRESS 100 and then END with the counters (42_onewire.md R203, 43_jtag_tap.md R259, 44_uart.md
R311). -/
theorem engineTurn_of_atDone {e : EngineId} {s : State} (hr : (s.out e).status.state = .running) (hdone : atDone e s) :
    ∃ t, engineTurn e s = .next t ∧ t.cur = e
      ∧ t.ops = encode (.progress 100#8)
        :: encode (.endRun RunState.done.code FailCode.none.code (s.out e).symcnt (s.out e).errcnt) :: s.ops := by
  cases e with
  | ow => exact ⟨_, by rw [engineTurn_ow hr, owStep, show s.owPc = .done from hdone], rfl, rfl⟩
  | jtag => exact ⟨_, by rw [engineTurn_jtag hr, jtStep, show s.jtPc = .done from hdone], rfl, rfl⟩
  | uart => exact ⟨_, by rw [engineTurn_uart hr, uaStep, show s.uaPc = .done from hdone], rfl, rfl⟩

/-- Settles O38: the END step forms PROGRESS 100 and END, and the two steps after it carry them out for the engine itself; neither
touches another engine or the host's side. -/
theorem normalEndReportsHundredThenDone : Obligations.NormalEndReportsHundredThenDone := by
  intro s e hr hdone hnone
  obtain ⟨t, ht, hcur, htops⟩ := engineTurn_of_atDone hr hdone
  obtain ⟨hothers, hhost, hout, -⟩ := engineTurn_writes ht
  refine ⟨t, _, _, ht, step_of_progress hcur htops rfl, step_of_endRun (e := e) ((afterFront_cur _ _ _ _).trans hcur)
    (afterFront_ops _ _ _ _) rfl rfl, ?_, ?_, ?_, ?_⟩
  · rw [afterFront_ops, hnone]
  · simp only [afterFront_out, hout, List.append_assoc]
    rfl
  · exact (hothers.trans (othersKept_afterFront _ _ _ _)).trans (othersKept_afterFront _ _ _ _)
  · exact (hhost.trans (hostSideKept_afterFront _ _ _ _)).trans (hostSideKept_afterFront _ _ _ _)

end Sys2Proof.Machine
end

section
/-!
PROOFS. Family 43_jtag_tap.md, the rules of the JTAG engine as whole next states: START (R250), INIT (R251), SCAN and STEP (R252, R253),
CLEAR and SHIFT (R254, R255), UPDATE and SPAN (R256, R257), each with the words it forms (log 7), and the way home of R248.
-/

namespace Sys2Proof.Machine

/-! ## START (43_jtag_tap.md R250) -/

/-- A register that may be absent names no channel when it holds -1, and else the channel it holds (10_state.md R44). -/
theorem chanOf_map_toNat {w : Word} (h : namesChannelOrAbsent w) :
    (chanOf w).map BitVec.toNat = if w = 0xFF#64 then none else some w.toNat := by
  have habsent : chanByte w = absentByte ↔ w = 0xFF#64 := by
    rw [chanByte_eq_absent, ← BitVec.toNat_inj, BitVec.toNat_ofNat]
    unfold namesChannelOrAbsent at h
    omega
  unfold chanOf
  split_ifs with hbyte hword hword
  · rfl
  · exact absurd (habsent.1 hbyte) hword
  · exact absurd (habsent.2 hword) hbyte
  · rw [Option.map_some, chanByte_toNat, Nat.mod_eq_of_lt]
    unfold namesChannelOrAbsent at h
    omega

/-- A register that names a channel does not hold -1. -/
theorem chanOf_of_namesChannel {w : Word} (h : namesChannel w) : chanOf w = some (chanByte w) := by
  have hpresent := (chanRegRequired_iff w).2 h
  rw [chanOf, if_neg hpresent.2]

/-- The CLEAR records of one channel register: one when it names a channel, none when it holds -1. -/
theorem clear_of_chanOf {w : Word} (h : namesChannelOrAbsent w) :
    ((chanOf w).toList.map Instr.clear).map encode
      = ([w].filter (fun r => r != 0xFF#64)).map (fun r => .record [headerWord 0x01 r.toNat 0 0 0]) := by
  have hnames := chanOf_map_toNat h
  split_ifs at hnames with hword
  · rw [Option.map_eq_none_iff.1 hnames, hword]
    rfl
  · obtain ⟨ch, hch, hnat⟩ := Option.map_eq_some_iff.1 hnames
    rw [hch, List.filter_cons_of_pos (p := fun r => r != 0xFF#64) (bne_iff_ne.2 hword)]
    exact congrArg (fun op => [op]) ((encode_clear ch).trans (by rw [hnat]))

/-- The working registers an accepted START leaves: the configuration latched (43_jtag_tap.md R250). -/
def jtLatched (s : State) : JtWork :=
  { s.jtWork with
    winS := s.jtConfig.winS.toNat
    winE := s.jtConfig.winE.toNat
    tck := chanByte s.jtConfig.tck
    tms := chanByte s.jtConfig.tms
    tdi := chanOf s.jtConfig.tdi
    tdo := chanOf s.jtConfig.tdo }

/-- JTAG.START latches the configuration and forms the CLEAR records of what it latched. -/
theorem jtStart_eq (s : State) :
    jtStart s = .next (form (jtClears (jtLatched s)) { s with jtWork := jtLatched s, jtPc := .init }) := rfl

/-- The CLEAR records of a legal configuration, register by register: each one that does not hold -1 (43_jtag_tap.md R250). -/
theorem encode_jtClears {s : State} (h : jtLegal s) :
    (jtClears (jtLatched s)).map encode
      = ([s.jtConfig.tck, s.jtConfig.tms, s.jtConfig.tdi, s.jtConfig.tdo].filter (fun r => r != 0xFF#64)).map
        (fun r => .record [headerWord 0x01 r.toNat 0 0 0]) := by
  obtain ⟨-, -, htck, htms, htdi, htdo⟩ := h
  have hperRegister : jtClears (jtLatched s)
      = (chanOf s.jtConfig.tck).toList.map .clear ++ (chanOf s.jtConfig.tms).toList.map .clear
        ++ (chanOf s.jtConfig.tdi).toList.map .clear ++ (chanOf s.jtConfig.tdo).toList.map .clear := by
    rw [chanOf_of_namesChannel htck, chanOf_of_namesChannel htms]
    rfl
  rw [hperRegister, List.map_append, List.map_append, List.map_append, clear_of_chanOf (.inl htck), clear_of_chanOf (.inl htms),
    clear_of_chanOf htdi, clear_of_chanOf htdo, ← List.map_append, ← List.map_append, ← List.map_append,
    ← List.filter_append, ← List.filter_append, ← List.filter_append]
  rfl

/-- A START that is accepted is the engine's START step on the state with the output side of R383. -/
theorem startEngine_of_accepted {e : EngineId} {ok : Bool} {k : State → Result} {s : State}
    (hidle : (s.out e).status.state ≠ .running) (hok : ok = true) : startEngine e ok k s = k (acceptStart e s) := by
  rcases startEngine_cases e ok k s with ⟨hr, -⟩ | ⟨-, hno, -⟩ | ⟨-, -, heq⟩
  · exact absurd hr hidle
  · exact absurd (hok.symm.trans hno) (by decide)
  · exact heq

/-- START.JTAG with a legal configuration is the JTAG engine's START step (43_jtag_tap.md R250, 46_host_commands.md R385). -/
theorem exec_startJtag_of_legal {s : State} (hidle : s.jtOut.status.state ≠ .running) (h : jtLegal s) :
    exec .startJtag s = jtStart (acceptStart .jtag s) :=
  startEngine_of_accepted (e := .jtag) hidle ((jtConfigOk_iff s).2 h)

/-- Settles O12: the START step runs on the accepted state, whose configuration is that of `s`. -/
theorem acceptedJtagStartLatches : Obligations.AcceptedJtagStartLatches := by
  intro s hidle hlegal
  have hexec := (exec_startJtag_of_legal hidle hlegal).trans (jtStart_eq _)
  have hclears := encode_jtClears hlegal
  obtain ⟨-, -, htck, htms, htdi, htdo⟩ := hlegal
  refine ⟨jtLatched s, ?_, rfl, rfl, chanByte_toNat_of_namesChannel htck, chanByte_toNat_of_namesChannel htms,
    chanOf_map_toNat htdi, chanOf_map_toNat htdo, rfl⟩
  rw [hexec, ← hclears]
  rfl

/-! ## A line's level in an entry (20_memory.md R83) -/

/-- The masked level of one channel is its bit of the entry. -/
theorem active_chanMask (val : ChannelBits) {ch : Byte} (h : ch.toNat < 32) : active val (chanMask ch) = val.getLsbD ch.toNat := by
  have hmask : (BitVec.twoPow 32 ch.toNat).getLsbD ch.toNat = true := by simp [h]
  have hne : BitVec.twoPow 32 ch.toNat ≠ 0#32 := fun hzero => by
    rw [hzero, BitVec.getLsbD_zero] at hmask
    exact absurd hmask (by decide)
  rw [active, chanMask, ← BitVec.twoPow_eq, BitVec.and_twoPow]
  cases val.getLsbD ch.toNat
  · rfl
  · exact bne_iff_ne.2 hne

/-! ## INIT, SCAN and STEP (43_jtag_tap.md R251 to R253) -/

/-- The working registers of JTAG.INIT: the TAP in TEST_LOGIC_RESET, nothing shifted, the open span and the index at the window's
start (43_jtag_tap.md R251). -/
def jtCleared (w : JtWork) : JtWork :=
  { w with
    current := .testLogicReset, previous := .testLogicReset, spanStart := w.winS, idx := w.winS
    tdiAcc := [], tdoAcc := [], shiftFirst := none, shiftLast := none }

/-- JTAG.INIT on an empty window goes to the end of the run. -/
theorem jtInit_of_empty {s : State} (hwin : s.jtWork.winS = s.jtWork.winE) :
    jtInit s = .next { s with jtWork := jtCleared s.jtWork, jtPc := .done } := by
  simp only [jtInit, hwin, if_true]
  rw [jtCleared, hwin]

/-- JTAG.INIT on a window with entries latches its times. -/
theorem jtInit_of_window {s : State} {t0 t1 : Int} (hlt : s.jtWork.winS < s.jtWork.winE)
    (hwin : window s.samples s.jtWork.winS s.jtWork.winE = some (t0, t1)) :
    jtInit s = .next { s with jtWork := { jtCleared s.jtWork with tStart := t0, tEnd := t1 }, jtPc := .scan } := by
  simp only [jtInit, if_neg hlt.ne, hwin]
  rfl

section
variable {s : State} {x : Sample} (hpending : s.jtOut.status.cancelPending = false) (hx : s.samples[s.jtWork.idx]? = some x)
include hpending hx

/-- JTAG.SCAN without another rising edge of TCK ends the run. -/
theorem jtScan_of_none (hnone : findEdge s.samples x.time s.jtWork.tEnd (chanMask s.jtWork.tck) .rising = none) :
    jtScan s = .next { s with jtPc := .done } := by
  simp only [jtScan, hpending, Bool.false_eq_true, if_false, hx, hnone]

/-- JTAG.SCAN takes the next rising edge of TCK. -/
theorem jtScan_of_edge {a : Hit} (hedge : findEdge s.samples x.time s.jtWork.tEnd (chanMask s.jtWork.tck) .rising = some a) :
    jtScan s = .next { s with jtPc := .step, jtWork := { s.jtWork with idx := a.idx } } := by
  simp only [jtScan, hpending, Bool.false_eq_true, if_false, hx, hedge]

end

/-- JTAG.STEP forms the row of the current state and the TMS bit of the very entry of the edge. -/
theorem jtStepEdge_eq {s : State} {x : Sample} (hx : s.samples[s.jtWork.idx]? = some x) (htms : s.jtWork.tms.toNat < 32) :
    jtStepEdge s = .next { s with
      jtPc := .clear
      ops := .tap (BitVec.ofNat 5 (2 * s.jtWork.current.code.toNat + (x.val.getLsbD s.jtWork.tms.toNat).toNat)) :: s.ops } := by
  simp only [jtStepEdge, hx, form_singleton, encode_tapRow, tapIndex_eq, active_chanMask _ htms]

/-- Settles O39: the rules of the three steps, on the state with the JTAG engine executing. -/
theorem jtagScanTakesRowAtClockEdge : Obligations.JtagScanTakesRowAtClockEdge := by
  intro s hr
  refine ⟨fun hpc hwin => ?_, fun t0 t1 hpc hlt hwin => ?_, fun x hpc hpending hx => ?_, fun x hpc hx htms => ?_⟩
  · rw [engineTurn_jtag hr, jtStep, hpc]
    exact jtInit_of_empty hwin
  · rw [engineTurn_jtag hr, jtStep, hpc]
    exact jtInit_of_window hlt hwin
  · rw [engineTurn_jtag hr, jtStep, hpc]
    exact ⟨jtScan_of_none (s := { s with cur := .jtag }) hpending hx, fun a => jtScan_of_edge (s := { s with cur := .jtag }) hpending hx⟩
  · rw [engineTurn_jtag hr, jtStep, hpc]
    exact jtStepEdge_eq hx htms

/-! ## CLEAR and SHIFT (43_jtag_tap.md R254, R255) -/

/-- JTAG.CLEAR: only in a Capture state are the accumulators cleared. -/
theorem jtClear_eq (s : State) :
    jtClear s = .next { s with jtPc := .shift, jtWork :=
      if s.jtWork.current = .captureDr ∨ s.jtWork.current = .captureIr then
        { s.jtWork with tdiAcc := [], tdoAcc := [], shiftFirst := none, shiftLast := none }
      else s.jtWork } := by
  by_cases hcapture : s.jtWork.current = .captureDr ∨ s.jtWork.current = .captureIr
  · simp only [jtClear, if_pos hcapture]
  · simp only [jtClear, if_neg hcapture]

/-- A present line's string takes its bit of the entry in front; an absent line's string stays (43_jtag_tap.md R255). -/
theorem prependBit_eq (val : ChannelBits) {line : Option Byte} (hline : ∀ ch, line = some ch → ch.toNat < 32) (acc : List Bool) :
    prependBit val line acc = (line.map fun ch => val.getLsbD ch.toNat).toList ++ acc := by
  cases line with
  | none => rfl
  | some ch =>
    rw [prependBit, active_chanMask val (hline ch rfl)]
    rfl

/-- JTAG.SHIFT in a Shift state keeps the first shifted index, moves the last one here and gives each present line's string its bit;
outside the Shift states no working register changes. -/
theorem jtShift_eq {s : State} {x : Sample} (hx : s.samples[s.jtWork.idx]? = some x)
    (htdi : ∀ ch, s.jtWork.tdi = some ch → ch.toNat < 32) (htdo : ∀ ch, s.jtWork.tdo = some ch → ch.toNat < 32) :
    jtShift s = .next { s with jtPc := .update, jtWork :=
      if s.jtWork.current = .shiftDr ∨ s.jtWork.current = .shiftIr then
        { s.jtWork with
          shiftFirst := if s.jtWork.shiftFirst = none then some s.jtWork.idx else s.jtWork.shiftFirst
          shiftLast := some s.jtWork.idx
          tdiAcc := (s.jtWork.tdi.map fun ch => x.val.getLsbD ch.toNat).toList ++ s.jtWork.tdiAcc
          tdoAcc := (s.jtWork.tdo.map fun ch => x.val.getLsbD ch.toNat).toList ++ s.jtWork.tdoAcc }
      else s.jtWork } := by
  have hfirst : some (s.jtWork.shiftFirst.getD s.jtWork.idx)
      = if s.jtWork.shiftFirst = none then some s.jtWork.idx else s.jtWork.shiftFirst := by
    cases s.jtWork.shiftFirst <;> rfl
  by_cases hshift : s.jtWork.current = .shiftDr ∨ s.jtWork.current = .shiftIr
  · simp only [jtShift, if_pos hshift, hx, hfirst, prependBit_eq x.val htdi, prependBit_eq x.val htdo]
  · simp only [jtShift, if_neg hshift]

/-- Settles O40: the rules of the two steps, on the state with the JTAG engine executing. -/
theorem jtagCaptureClearsShiftPrepends : Obligations.JtagCaptureClearsShiftPrepends := by
  intro s hr
  refine ⟨fun hpc => ?_, fun x hpc hx htdi htdo => ?_⟩
  · rw [engineTurn_jtag hr, jtStep, hpc]
    exact jtClear_eq _
  · rw [engineTurn_jtag hr, jtStep, hpc]
    exact jtShift_eq (s := { s with cur := .jtag }) hx htdi htdo

/-! ## UPDATE and SPAN (43_jtag_tap.md R256, R257) -/

/-- The words of a JT_STATE record (30_encoding.md R116). -/
theorem encode_jtState (chan : Byte) (state : TapState) (start stop : Word) :
    encode (.jtState chan state start stop) = .record [headerWord 0x20 chan.toNat state.code.toNat 0x80 2, start, stop] := by
  have hsub : (0#4 ++ state.code : BitVec (4 + 4)).toNat = state.code.toNat := by cases state <;> rfl
  rw [← hsub]
  exact congrArg (OpWord.record [·, start, stop]) (Header.word_eq _)

/-- Without a shifted bit an Update has no record (43_jtag_tap.md R256). -/
theorem jtShiftRecords_of_none {w : JtWork} (hfirst : w.shiftFirst = none) : jtShiftRecords w = [] := by
  simp only [jtShiftRecords, hfirst]

/-- With bits shifted from `first` to `last` an Update has one record for each present line, TDI before TDO. -/
theorem jtShiftRecords_of_some {w : JtWork} {first last : Nat} (hfirst : w.shiftFirst = some first) (hlast : w.shiftLast = some last) :
    jtShiftRecords w = (w.tdi.map fun ch => Instr.jtShiftTdi ch (shiftBody first last w.tdiAcc)).toList
      ++ (w.tdo.map fun ch => Instr.jtShiftTdo ch (shiftBody first last w.tdoAcc)).toList := by
  simp only [jtShiftRecords, hfirst, hlast, Option.toList_map]

/-- JTAG.UPDATE in an Update state forms the records of what has been shifted. -/
theorem jtUpdate_of_update {s : State} (hupdate : s.jtWork.current = .updateDr ∨ s.jtWork.current = .updateIr) :
    jtUpdate s = .next { s with jtPc := .span, ops := (jtShiftRecords s.jtWork).map encode ++ s.ops } := by
  simp only [jtUpdate, if_pos hupdate]
  rfl

/-- JTAG.UPDATE outside the Update states forms nothing. -/
theorem jtUpdate_of_not_update {s : State} (hother : ¬(s.jtWork.current = .updateDr ∨ s.jtWork.current = .updateIr)) :
    jtUpdate s = .next { s with jtPc := .span } := by
  simp only [jtUpdate, if_neg hother]

/-- JTAG.SPAN in the state of the open span changes no working register. -/
theorem jtSpan_of_same {s : State} (hsame : s.jtWork.current = s.jtWork.previous) : jtSpan s = .next { s with jtPc := .progress } := by
  simp only [jtSpan, hsame, ne_eq, not_true_eq_false, if_false]

/-- JTAG.SPAN at a change of state forms the span of the state left and opens the next one. -/
theorem jtSpan_of_change {s : State} (hchange : s.jtWork.current ≠ s.jtWork.previous) :
    jtSpan s = .next { s with
      jtPc := .progress
      jtWork := { s.jtWork with spanStart := s.jtWork.idx + 1, previous := s.jtWork.current }
      ops := .record [headerWord 0x20 s.jtWork.tms.toNat s.jtWork.previous.code.toNat 0x80 2,
        natWord s.jtWork.spanStart, natWord s.jtWork.idx] :: s.ops } := by
  simp only [jtSpan, if_pos hchange, form_singleton, encode_jtState]

/-- Settles O41: the rules of the two steps, on the state with the JTAG engine executing; the records of an Update are those of the three
cases. -/
theorem jtagUpdateAndSpanEmit : Obligations.JtagUpdateAndSpanEmit := by
  intro s hr
  refine ⟨fun records hpc hrecords => ?_, fun hpc hsame => ?_, fun hpc hchange => ?_⟩
  · rw [engineTurn_jtag hr, jtStep, hpc]
    rcases hrecords with ⟨hdr, hir, rfl⟩ | ⟨hupdate, hfirst, rfl⟩ | ⟨hupdate, first, last, hfirst, hlast, rfl⟩
    · exact jtUpdate_of_not_update (s := { s with cur := .jtag }) (not_or_intro hdr hir)
    · rw [← jtShiftRecords_of_none hfirst]
      exact jtUpdate_of_update (s := { s with cur := .jtag }) hupdate
    · rw [← jtShiftRecords_of_some hfirst hlast]
      exact jtUpdate_of_update (s := { s with cur := .jtag }) hupdate
  · rw [engineTurn_jtag hr, jtStep, hpc]
    exact jtSpan_of_same (s := { s with cur := .jtag }) hsame
  · rw [engineTurn_jtag hr, jtStep, hpc]
    exact jtSpan_of_change (s := { s with cur := .jtag }) hchange

/-! ## Five edges with TMS = 1 (43_jtag_tap.md R248) -/

/-- Every path of the table along TMS = 1 is at TEST_LOGIC_RESET after five rows. -/
theorem tapNext_five_ones (t : TapState) :
    tapNext (tapNext (tapNext (tapNext (tapNext t true) true) true) true) true = .testLogicReset := by cases t <;> rfl

/-- Settles O24: each row moves the controller along the table, and the table's path is home after five. -/
theorem fiveOnesReachTestLogicReset : Obligations.FiveOnesReachTestLogicReset := by
  intro s
  refine ⟨_, _, _, _, _, exec_tapRow _ _ _, exec_tapRow _ _ _, exec_tapRow _ _ _, exec_tapRow _ _ _, exec_tapRow _ _ _, ?_⟩
  simp only [tapMove_jtWork]
  exact tapNext_five_ones s.jtWork.current

end Sys2Proof.Machine
end

section
/-!
PROOFS. Family 44_uart.md, where a frame's sample instants lie and what is sampled there: the instants as floors of exact positions
(44_uart.md R296), LEVEL (40_edge_scanner.md R151), and the value, the parity and the stop check of a frame (44_uart.md R298 to R302).
-/

namespace Sys2Proof.Machine

/-! ## The sample instants (44_uart.md R296) -/

/-- A sample instant is the exact position on the time axis, rounded down (00_scope.md R16). -/
theorem sampleTime_eq_floor (t0 : Int) (cell : Frac) (quarters : Nat) (hden : 0 < cell.den) :
    sampleTime t0 cell quarters = ⌊(t0 : ℚ) + (quarters : ℚ) / 4 * ((cell.num : ℚ) / cell.den)⌋ := by
  have hne : (cell.den : ℚ) ≠ 0 := by exact_mod_cast hden.ne'
  rw [sampleTime, ← floor_intCast_div _ (by positivity)]
  push_cast
  congr 1
  field_simp

/-- The position of data bit `k`, `k + 3/2` cells after the start edge. -/
theorem dataPositions_getElem? {n k : Nat} (hk : k < n) : (dataPositions n)[k]? = some (4 * k + 6) := by
  rw [dataPositions, List.getElem?_map, List.getElem?_range hk, Option.map_some]

theorem dataPositions_length (n : Nat) : (dataPositions n).length = n := by rw [dataPositions, List.length_map, List.length_range]

/-- Settles O42: the floor of the exact position, which is not before the start edge for a cell that is not negative. -/
theorem uartSampleInstants : Obligations.UartSampleInstants := by
  refine ⟨fun t0 num den quarters hden => ⟨sampleTime_eq_floor t0 ⟨num, den⟩ quarters hden, fun hnum => ?_⟩,
    fun n k => dataPositions_getElem?, dataPositions_length, fun n p => ⟨rfl, rfl, rfl⟩⟩
  have hcell : cellLegal ⟨num, den⟩ = true := by simp [cellLegal, hnum, hden]
  exact le_sampleTime hcell quarters

/-! ## LEVEL (40_edge_scanner.md R151) -/

/-- From the first entry on, the level is the channel's bit of the entry held. -/
theorem level_of_started {m : Memory} {t : Int} {ch : Byte} (hch : ch.toNat < 32) (hstart : ∃ x, m[0]? = some x ∧ x.time ≤ t) :
    ∃ i x, heldEntry m t i x ∧ level m t ch = some (x.val.getLsbD ch.toNat) := by
  cases hheld : valueAt m t with
  | none =>
    obtain ⟨x, hx, hxt⟩ := hstart
    exact absurd ((valueAt_eq_none m t).1 hheld x hx) (not_lt.2 hxt)
  | some h =>
    obtain ⟨-, hentry⟩ := (valueAt_eq_some m t h).1 hheld
    exact ⟨h.idx, ⟨h.ts, h.val⟩, hentry, by simp only [level, hheld, active_chanMask _ hch]⟩

/-- Before the first entry there is no level. -/
theorem level_eq_none {m : Memory} {t : Int} (ch : Byte) (hbefore : ∀ x, m[0]? = some x → t < x.time) : level m t ch = none := by
  simp only [level, (valueAt_eq_none m t).2 hbefore]

/-- The levels at several instants are known when the level at each of them is. -/
theorem levels_eq_some_iff {m : Memory} {chan : Byte} {ts : List Int} {bs : List Bool} :
    levels m chan ts = some bs ↔ ts.map (fun t => level m t chan) = bs.map some := by
  induction ts generalizing bs with
  | nil => cases bs <;> simp [levels]
  | cons t ts ih =>
    cases bs with
    | nil =>
      simp only [levels, List.map_cons, List.map_nil, reduceCtorEq, iff_false]
      split <;> nofun
    | cons b bs =>
      rw [List.map_cons, List.map_cons, List.cons.injEq, ← ih, levels]
      cases level m t chan <;> cases levels m chan ts <;> simp

/-! ## The latched frame format (10_state.md R47) -/

/-- A field of two bits of the frame, in plain arithmetic. -/
theorem frameField_toNat (frame : Word) (lo : Nat) : (frame.extractLsb' lo 2).toNat = frame.toNat / 2 ^ lo % 4 := by
  rw [BitVec.extractLsb'_toNat, Nat.shiftRight_eq_div_pow]

/-- The parity setting is the field of bits 3:2; the value 3 has none. -/
theorem frameParity_eq (frame : Word) : frameParity frame = [Parity.none, .odd, .even][frame.toNat / 4 % 4]? := by
  have hfield : (frame.extractLsb' 2 2).toNat = frame.toNat / 4 % 4 := frameField_toNat frame 2
  have hlt : frame.toNat / 4 % 4 < 4 := Nat.mod_lt _ (by decide)
  rw [frameParity, hfield]
  generalize frame.toNat / 4 % 4 = field at hlt
  interval_cases field <;> rfl

/-- The stop-bit setting is the field of bits 5:4; the value 3 has none. -/
theorem frameStop_eq (frame : Word) : frameStop frame = [StopBits.one, .oneAndHalf, .two][frame.toNat / 16 % 4]? := by
  have hfield : (frame.extractLsb' 4 2).toNat = frame.toNat / 16 % 4 := frameField_toNat frame 4
  have hlt : frame.toNat / 16 % 4 < 4 := Nat.mod_lt _ (by decide)
  rw [frameStop, hfield]
  generalize frame.toNat / 16 % 4 = field at hlt
  interval_cases field <;> rfl

theorem uaParityOf_eq (w : UaWork) : uaParityOf w = ([Parity.none, .odd, .even][w.frame.toNat / 4 % 4]?).getD .none := by
  rw [uaParityOf, frameParity_eq]

theorem uaStopOf_eq (w : UaWork) : uaStopOf w = ([StopBits.one, .oneAndHalf, .two][w.frame.toNat / 16 % 4]?).getD .one := by
  rw [uaStopOf, frameStop_eq]

/-! ## DATA (44_uart.md R298) -/

/-- Bit `k` of the value is data bit `k`, and 0 where there is none. -/
theorem assembleLsbFirst_getLsbD (bits : List Bool) {k : Nat} (hk : k < 8) :
    (assembleLsbFirst bits).getLsbD k = bits.getD k false := by
  induction bits generalizing k with
  | nil => simp [assembleLsbFirst]
  | cons b bits ih =>
    have hcons : assembleLsbFirst (b :: bits) = (assembleLsbFirst bits <<< 1) ||| (BitVec.ofBool b).setWidth 8 := rfl
    rw [hcons, BitVec.getLsbD_or]
    cases k with
    | zero => cases b <;> simp
    | succ k =>
      have hnew : ((BitVec.ofBool b).setWidth 8).getLsbD (k + 1) = false := by simp
      rw [hnew, Bool.or_false, BitVec.getLsbD_shiftLeft, List.getD_cons_succ, ← ih (show k < 8 by omega)]
      simp [hk]

/-- UART.DATA with the levels of its instants assembles them, inverted when configured. -/
theorem uaData_eq {s : State} {l : Lane} {bs : List Bool} (hlane : currentLane s.uaWork = some l)
    (hlevels : levels s.samples l.chan (dataTimes s.uaWork) = some bs) :
    uaData s = .next { s with
      uaPc := .parity
      uaWork := { s.uaWork with value := assembleLsbFirst (bs.map fun b => b ^^ frameInvert s.uaWork.frame) } } := by
  simp only [uaData, hlane, hlevels]

/-- Settles O44: the two clauses about LEVEL, and the value that UART.DATA assembles from the levels at the cell centres. -/
theorem uartDataSamplesCellCentres : Obligations.UartDataSamplesCellCentres := by
  refine ⟨fun m t ch hch => ⟨level_of_started hch, level_eq_none ch⟩, fun s l lv hr hpc hlane hlv => ?_⟩
  have hlevels : levels s.samples l.chan (dataTimes s.uaWork) = some ((List.range (s.uaWork.frame.toNat % 4 + 5)).map lv) := by
    rw [levels_eq_some_iff, dataTimes, dataPositions, frameBits_eq, List.map_map, List.map_map, List.map_map]
    exact List.map_congr_left fun k hk => hlv k (List.mem_range.1 hk)
  refine ⟨assembleLsbFirst (((List.range (s.uaWork.frame.toNat % 4 + 5)).map lv).map fun b => b ^^ frameInvert s.uaWork.frame), ?_,
    fun k hk => ?_⟩
  · rw [engineTurn_uart hr, uaStep, hpc]
    exact uaData_eq (s := { s with cur := .uart }) hlane hlevels
  · rw [assembleLsbFirst_getLsbD _ hk, List.map_map, List.getD_eq_getElem?_getD, List.getElem?_map]
    by_cases hbit : k < s.uaWork.frame.toNat % 4 + 5
    · rw [List.getElem?_range hbit, decide_eq_true hbit]
      rfl
    · rw [List.getElem?_eq_none (by simpa using hbit), decide_eq_false hbit]
      rfl

/-! ## PARITY (44_uart.md R299, R300) -/

/-- Without a parity bit there is no sample and no error. -/
theorem uaParity_of_none {s : State} (hpar : uaParityOf s.uaWork = .none) :
    uaParity s = .next { s with uaPc := .stop, uaWork := { s.uaWork with pe := false } } := by
  simp only [uaParity, hpar]

/-- A configured parity bit is sampled, inverted when configured, and checked. -/
theorem uaParity_of_checked {s : State} {l : Lane} {par : Parity} {lv : Bool} (hpar : uaParityOf s.uaWork = par) (hne : par ≠ .none)
    (hlane : currentLane s.uaWork = some l) (hlevel : level s.samples (parityTime s.uaWork) l.chan = some lv) :
    uaParity s = .next { s with
      uaPc := .stop
      uaWork := { s.uaWork with
        pbit := lv ^^ frameInvert s.uaWork.frame
        pe := parityError par s.uaWork.value (lv ^^ frameInvert s.uaWork.frame) } } := by
  cases par with
  | none => exact absurd rfl hne
  | odd | even => simp only [uaParity, hpar, hlane, hlevel]

/-- Settles O45: no parity, odd parity and even parity, by the field of the latched frame. -/
theorem uartParityCheck : Obligations.UartParityCheck := by
  intro s l hr hpc hlane
  rw [engineTurn_uart hr, uaStep, hpc]
  refine ⟨fun hfield => ?_, ?_⟩
  · exact uaParity_of_none (s := { s with cur := .uart }) (by rw [uaParityOf_eq, hfield]; rfl)
  · rintro lv pbit ones hfield hlevel rfl rfl
    rw [← frameBits_eq] at hlevel
    rcases hfield with hodd | heven
    · rw [hodd]
      exact uaParity_of_checked (s := { s with cur := .uart }) (par := .odd) (by rw [uaParityOf_eq, hodd]; rfl) nofun hlane hlevel
    · rw [heven]
      exact uaParity_of_checked (s := { s with cur := .uart }) (par := .even) (by rw [uaParityOf_eq, heven]; rfl) nofun hlane hlevel

/-! ## STOP (44_uart.md R301, R302) -/

/-- UART.STOP with the levels of its instants checks them against the idle level. -/
theorem uaStop_eq {s : State} {l : Lane} {bs : List Bool} (hlane : currentLane s.uaWork = some l)
    (hlevels : levels s.samples l.chan (stopTimes s.uaWork) = some bs) :
    uaStop s = .next { s with uaPc := .emit, uaWork := { s.uaWork with fe := frameError (frameInvert s.uaWork.frame) bs } } := by
  simp only [uaStop, hlane, hlevels]

/-- Settles O46: the stop instants are those of the latched data bits, parity and stop bits. -/
theorem uartStopCheck : Obligations.UartStopCheck := by
  intro s l lvs n p stp hr hpc hlane hn hparity hstop hlvs
  have hbits : frameBits s.uaWork.frame = n := (frameBits_eq _).trans hn.symm
  have hcells : parityCells (uaParityOf s.uaWork) = p := by
    rw [uaParityOf_eq]
    rcases hparity with ⟨hfield, rfl⟩ | ⟨hfield, rfl⟩
    · rw [hfield]
      rfl
    · rcases List.mem_pair.1 hfield with hodd | heven
      · rw [hodd]
        rfl
      · rw [heven]
        rfl
  have hsetting : uaStopOf s.uaWork = stp := by
    rw [uaStopOf_eq]
    rcases hstop with ⟨hfield, rfl⟩ | ⟨hfield, rfl⟩ | ⟨hfield, rfl⟩ <;> rw [hfield] <;> rfl
  have hlevels : levels s.samples l.chan (stopTimes s.uaWork) = some lvs := by
    rw [levels_eq_some_iff, stopTimes, hbits, hcells, hsetting, List.map_map]
    exact hlvs
  rw [engineTurn_uart hr, uaStep, hpc]
  exact uaStop_eq (s := { s with cur := .uart }) hlane hlevels

end Sys2Proof.Machine
end

section
/-!
PROOFS. Family 44_uart.md, the rules of the UART engine as whole next states: START (R290, R291), LANE, STARTBIT and CELL (R293 to R295),
FIT and NEXTLANE (R297, R310), EMIT and RESUME (R303, R304), HS and HSEVENT (R306 to R308), each with the words it forms (log 7).
-/

namespace Sys2Proof.Machine

/-! ## START (44_uart.md R290, R291) -/

/-- The lanes of registers that may be absent: each one that does not hold -1, with the channel it holds. -/
theorem filterMap_chanOf {regs : List (LaneKind × Word)} (h : ∀ p ∈ regs, namesChannelOrAbsent p.2) :
    (regs.filterMap fun p => (chanOf p.2).map fun ch => (⟨p.1, ch⟩ : Lane)).map (fun l => (l.kind, l.chan.toNat))
      = (regs.filter fun p => p.2 != 0xFF#64).map fun p => (p.1, p.2.toNat) := by
  induction regs with
  | nil => rfl
  | cons p regs ih =>
    obtain ⟨hp, hregs⟩ := List.forall_mem_cons.1 h
    have hnames := chanOf_map_toNat hp
    split_ifs at hnames with hword
    · rw [List.filterMap_cons_none (by rw [Option.map_eq_none_iff.1 hnames]; rfl), ih hregs,
        List.filter_cons_of_neg (by simp [hword])]
    · obtain ⟨ch, hch, hnat⟩ := Option.map_eq_some_iff.1 hnames
      rw [List.filterMap_cons_some (by rw [hch]; rfl), List.filter_cons_of_pos (by simpa using hword), List.map_cons, List.map_cons,
        ih hregs, hnat]

/-- The lanes of a legal configuration: the lines that do not hold -1, in the fixed order (44_uart.md R291). -/
theorem lanesOf_names {s : State} (h : uaLegal s) :
    (lanesOf s.uaConfig).map (fun l => (l.kind, l.chan.toNat))
      = ((laneRegs s.uaConfig).filter fun p => p.2 != 0xFF#64).map fun p => (p.1, p.2.toNat) := by
  obtain ⟨-, -, hrxd, htxd, hcts, hrts, hdtr, hdsr, hdcd, hri, -⟩ := h
  refine filterMap_chanOf ?_
  simp only [laneRegs, List.forall_mem_cons]
  exact ⟨hrxd, htxd, hcts, hrts, hdtr, hdsr, hdcd, hri, nofun⟩

/-- The working registers in which START latches the configuration. -/
def uaLatched (s : State) : UaWork :=
  { s.uaWork with
    winS := s.uaConfig.winS.toNat
    winE := s.uaConfig.winE.toNat
    frame := s.uaConfig.frame
    baud := s.uaConfig.baud
    lanes := lanesOf s.uaConfig }

/-- The state after a START step: the working registers, the next step, and one CLEAR record for each lane. -/
def uaStarted (s : State) (w : UaWork) (pc : UaPc) : State :=
  form (w.lanes.map fun l => .clear l.chan) { s with uaWork := w, uaPc := pc }

/-- UART.START without a lane or with an empty window goes to the end of the run. -/
theorem uaStart_of_nothing {s : State} (h : lanesOf s.uaConfig = [] ∨ s.uaConfig.winS.toNat = s.uaConfig.winE.toNat) :
    uaStart s = .next (uaStarted s (uaLatched s) .done) := by
  cases hl : lanesOf s.uaConfig with
  | nil => simp only [uaStart, uaStarted, uaLatched, hl]
  | cons l rest =>
    have hempty : s.uaConfig.winS.toNat = s.uaConfig.winE.toNat := h.resolve_left (by simp [hl])
    simp only [uaStart, uaStarted, uaLatched, hl, hempty, if_true]

/-- UART.START with a lane and a window of entries goes to the loop of lane 0, from the window's start. -/
theorem uaStart_of_lane {s : State} {l : Lane} {rest : List Lane} {t0 t1 : Int} (hl : lanesOf s.uaConfig = l :: rest)
    (hlt : s.uaConfig.winS.toNat < s.uaConfig.winE.toNat)
    (hwin : window s.samples s.uaConfig.winS.toNat s.uaConfig.winE.toNat = some (t0, t1)) :
    uaStart s = .next
      (uaStarted s { uaLatched s with lane := 0, tStart := t0, tEnd := t1, cursor := t0 } (laneLoop l.kind)) := by
  simp only [uaStart, uaStarted, uaLatched, hl, if_neg hlt.ne, hwin]

/-- START.UART with a legal configuration is the UART engine's START step (44_uart.md R290, 46_host_commands.md R385). -/
theorem exec_startUart_of_legal {s : State} (hidle : s.uaOut.status.state ≠ .running) (h : uaLegal s) :
    exec .startUart s = uaStart (acceptStart .uart s) :=
  startEngine_of_accepted (e := .uart) hidle ((uaConfigOk_iff s).2 h)

/-- The START step after the acceptance of R383, with the CLEAR records as words. -/
theorem uaStarted_acceptStart (s : State) (w : UaWork) (pc : UaPc) :
    uaStarted (acceptStart .uart s) w pc = { s with
      uaOut := ⟨⟨.running, .none, false⟩, 0#64, 0#64, 0#64, s.uaOut.stream, []⟩
      uaWork := w, uaPc := pc, cur := .uart
      ops := w.lanes.map (fun l => .record [headerWord 0x01 l.chan.toNat 0 0 0]) ++ s.ops } := by
  have hclears : (w.lanes.map fun l => Instr.clear l.chan).map encode
      = w.lanes.map fun l => .record [headerWord 0x01 l.chan.toNat 0 0 0] := by
    rw [List.map_map]
    exact List.map_congr_left fun l _ => encode_clear l.chan
  rw [← hclears]
  rfl

/-- Settles O13: a run with nothing to do goes to its end, any other to the loop of its first lane. -/
theorem acceptedUartStartLatches : Obligations.AcceptedUartStartLatches := by
  intro s hidle hlegal
  have hexec := exec_startUart_of_legal hidle hlegal
  have hlanes := lanesOf_names hlegal
  obtain ⟨-, ⟨hwin, hend⟩, -⟩ := hlegal
  by_cases hnothing : lanesOf s.uaConfig = [] ∨ s.uaConfig.winS.toNat = s.uaConfig.winE.toNat
  · have hstart := uaStart_of_nothing (s := acceptStart .uart s) hnothing
    rw [uaStarted_acceptStart] at hstart
    refine ⟨uaLatched s, .done, hexec.trans hstart, rfl, rfl, rfl, rfl, hlanes, fun _ => ⟨rfl, rfl, rfl, rfl, rfl⟩, rfl,
      fun l rest hl hlt => ?_⟩
    rcases hnothing with hnone | hempty
    · exact absurd (hl.symm.trans hnone) (List.cons_ne_nil l rest)
    · exact absurd hempty (ne_of_lt hlt)
  · obtain ⟨hsome, hne⟩ := not_or.1 hnothing
    obtain ⟨l, rest, hl⟩ := List.exists_cons_of_ne_nil hsome
    obtain ⟨x, y, -, -, hwindow⟩ := window_eq_some (lt_of_le_of_ne hwin hne) hend
    have hstart := uaStart_of_lane (s := acceptStart .uart s) hl (lt_of_le_of_ne hwin hne) hwindow
    rw [uaStarted_acceptStart] at hstart
    refine ⟨_, _, hexec.trans hstart, rfl, rfl, rfl, rfl, hlanes, fun h => absurd h hnothing, rfl, fun l' rest' hl' _ => ?_⟩
    obtain ⟨rfl, -⟩ := List.cons.inj (hl.symm.trans hl')
    exact ⟨rfl, hwindow, rfl, laneLoop_eq l.kind⟩

/-! ## LANE, STARTBIT and CELL (44_uart.md R293 to R295) -/

/-- UART.LANE without a pending CANCEL: the loop condition. -/
theorem uaLane_eq {s : State} (hpending : s.uaOut.status.cancelPending = false) :
    uaLane s = .next { s with uaPc := if s.uaWork.cursor < s.uaWork.tEnd then .startBit else .nextLane } := by
  by_cases hcursor : s.uaWork.cursor < s.uaWork.tEnd
  · simp only [uaLane, hpending, Bool.false_eq_true, if_false, if_pos hcursor]
  · simp only [uaLane, hpending, Bool.false_eq_true, if_false, if_neg hcursor]

section
variable {s : State} {l : Lane} (hlane : currentLane s.uaWork = some l)
include hlane

/-- UART.STARTBIT without another start edge ends the lane. -/
theorem uaStartBit_of_none
    (hnone : findEdge s.samples s.uaWork.cursor s.uaWork.tEnd (chanMask l.chan) (startDir (frameInvert s.uaWork.frame)) = none) :
    uaStartBit s = .next { s with uaPc := .nextLane } := by
  simp only [uaStartBit, hlane, hnone]

/-- UART.STARTBIT takes the next start edge. -/
theorem uaStartBit_of_edge {a : Hit}
    (hedge : findEdge s.samples s.uaWork.cursor s.uaWork.tEnd (chanMask l.chan) (startDir (frameInvert s.uaWork.frame)) = some a) :
    uaStartBit s = .next { s with uaPc := .cell, uaWork := { s.uaWork with t0 := a.time } } := by
  simp only [uaStartBit, hlane, hedge]

/-- UART.CELL with baud 0 and a start pulse that does not end inside the window ends the lane. -/
theorem uaCell_of_unmeasured (hbaud : s.uaWork.baud = 0#64)
    (hnone : findEdge s.samples s.uaWork.t0 s.uaWork.tEnd (chanMask l.chan) (stopDir (frameInvert s.uaWork.frame)) = none) :
    uaCell s = .next { s with uaPc := .nextLane } := by
  simp only [uaCell, hbaud, ne_eq, not_true_eq_false, if_false, hlane, hnone]

/-- UART.CELL with baud 0 measures the start pulse. -/
theorem uaCell_of_measured {b : Hit} (hbaud : s.uaWork.baud = 0#64)
    (hedge : findEdge s.samples s.uaWork.t0 s.uaWork.tEnd (chanMask l.chan) (stopDir (frameInvert s.uaWork.frame)) = some b) :
    uaCell s = .next { s with uaPc := .fit, uaWork := { s.uaWork with cell := ⟨b.time - s.uaWork.t0, 1⟩ } } := by
  simp only [uaCell, hbaud, ne_eq, not_true_eq_false, if_false, hlane, hedge]

end

/-- UART.CELL with a configured baud is the rate over the baud. -/
theorem uaCell_of_baud {s : State} (hbaud : s.uaWork.baud ≠ 0#64) :
    uaCell s = .next { s with uaPc := .fit, uaWork := { s.uaWork with cell := ⟨s.sbRate.toNat, s.uaWork.baud.toNat⟩ } } := by
  simp only [uaCell, if_pos hbaud]

/-- Settles O43: the rules of the three steps, on the state with the UART engine executing. -/
theorem uartStartBitAndCell : Obligations.UartStartBitAndCell := by
  intro s l hr hlane
  rw [engineTurn_uart hr]
  refine ⟨fun hpc hpending => ?_, fun hpc => ?_, fun hpc hbaud => ?_, fun hpc hbaud => ?_⟩
  · rw [uaStep, hpc]
    exact uaLane_eq (s := { s with cur := .uart }) hpending
  · split <;> rw [uaStep, hpc]
    · next hnone => exact uaStartBit_of_none (s := { s with cur := .uart }) hlane hnone
    · next a hedge => exact uaStartBit_of_edge (s := { s with cur := .uart }) hlane hedge
  · rw [uaStep, hpc]
    exact uaCell_of_baud (s := { s with cur := .uart }) hbaud
  · split <;> rw [uaStep, hpc]
    · next hnone => exact uaCell_of_unmeasured (s := { s with cur := .uart }) hlane hbaud hnone
    · next b hedge => exact uaCell_of_measured (s := { s with cur := .uart }) hlane hbaud hedge

/-! ## FIT and NEXTLANE (44_uart.md R297, R310) -/

/-- A frame whose last stop sample is at `last` is read when it is complete inside the window; else the lane ends. -/
theorem uaFit_eq {s : State} {last : Int} (hlast : (stopTimes s.uaWork).getLast? = some last) :
    uaFit s = .next { s with
      uaPc := if last < s.uaWork.tEnd then .data else .nextLane
      uaWork := { s.uaWork with tLast := last } } := by
  have hlastD : (stopTimes s.uaWork).getLastD s.uaWork.t0 = last := by rw [List.getLastD_eq_getLast?, hlast, Option.getD_some]
  by_cases hfits : last < s.uaWork.tEnd
  · simp only [uaFit, hlastD, if_pos hfits, if_neg (not_le.2 hfits)]
  · simp only [uaFit, hlastD, if_neg hfits, if_pos (not_lt.1 hfits)]

/-- UART.NEXTLANE after the last lane ends the run. -/
theorem uaNextLane_of_last {s : State} (hnone : s.uaWork.lanes[s.uaWork.lane + 1]? = none) :
    uaNextLane s = .next { s with uaPc := .done, uaWork := { s.uaWork with lane := s.uaWork.lane + 1 } } := by
  simp only [uaNextLane, hnone]

/-- UART.NEXTLANE goes to the loop of the lane that follows, from the window's start. -/
theorem uaNextLane_of_more {s : State} {l : Lane} (hlane : s.uaWork.lanes[s.uaWork.lane + 1]? = some l) :
    uaNextLane s = .next { s with
      uaPc := if l.kind = .rx ∨ l.kind = .tx then .lane else .hs
      uaWork := { s.uaWork with lane := s.uaWork.lane + 1, cursor := s.uaWork.tStart } } := by
  simp only [uaNextLane, hlane, laneLoop_eq]

/-- Settles O49: the rules of the two steps, on the state with the UART engine executing. -/
theorem uartLaneEndsGoToNextLane : Obligations.UartLaneEndsGoToNextLane := by
  intro s hr
  rw [engineTurn_uart hr, uaStep]
  refine ⟨fun last hpc hlast => ?_, fun hpc hnone => ?_, fun l hpc hlane => ?_⟩ <;> rw [hpc]
  · exact uaFit_eq (s := { s with cur := .uart }) hlast
  · exact uaNextLane_of_last (s := { s with cur := .uart }) hnone
  · exact uaNextLane_of_more (s := { s with cur := .uart }) hlane

/-! ## EMIT and RESUME (44_uart.md R303, R304) -/

/-- The flags of a UA_DATA record, as a number: parity error, frame error, direction (30_encoding.md R116). -/
theorem flagByte_errors_toNat (dir fe pe : Bool) :
    (flagByte dir fe pe).toNat = pe.toNat + 2 * fe.toNat + (if dir then 4 else 0) := by revert dir fe pe; decide

theorem encode_uaDataRx (chan value : Byte) (pe fe : Bool) (start stop : Word) :
    encode (.uaDataRx chan value pe fe start stop)
      = .record [headerWord 0x30 chan.toNat value.toNat (pe.toNat + 2 * fe.toNat + 0) 2, start, stop] :=
  congrArg (OpWord.record [·, start, stop]) ((Header.word_eq _).trans
    (congrArg (headerWord 0x30 chan.toNat value.toNat · 2) (flagByte_errors_toNat false fe pe)))

theorem encode_uaDataTx (chan value : Byte) (pe fe : Bool) (start stop : Word) :
    encode (.uaDataTx chan value pe fe start stop)
      = .record [headerWord 0x30 chan.toNat value.toNat (pe.toNat + 2 * fe.toNat + 4) 2, start, stop] :=
  congrArg (OpWord.record [·, start, stop]) ((Header.word_eq _).trans
    (congrArg (headerWord 0x30 chan.toNat value.toNat · 2) (flagByte_errors_toNat true fe pe)))

/-- UART.EMIT on a data lane forms the Data symbol of the lane's direction, from the start edge to the last stop sample. -/
theorem uaEmit_eq {s : State} {l : Lane} (hlane : currentLane s.uaWork = some l) (hkind : l.kind = .rx ∨ l.kind = .tx) :
    uaEmit s = .next { s with
      uaPc := .resume
      ops := .record [headerWord 0x30 l.chan.toNat s.uaWork.value.toNat
        (s.uaWork.pe.toNat + 2 * s.uaWork.fe.toNat + (if l.kind = .tx then 4 else 0)) 2,
        intWord s.uaWork.t0, intWord s.uaWork.tLast] :: s.ops } := by
  rcases hkind with hrx | htx
  · simp only [uaEmit, hlane, hrx, form_singleton, encode_uaDataRx, reduceCtorEq, if_false]
  · simp only [uaEmit, hlane, htx, form_singleton, encode_uaDataTx, if_true]

/-- Settles O47: the rules of the two steps, on the state with the UART engine executing. -/
theorem uartEmitThenResume : Obligations.UartEmitThenResume := by
  intro s l hr hlane
  rw [engineTurn_uart hr, uaStep]
  refine ⟨fun hpc hkind => ?_, fun hpc => ?_⟩ <;> rw [hpc]
  · exact uaEmit_eq (s := { s with cur := .uart }) hlane hkind
  · rfl

/-! ## HS and HSEVENT (44_uart.md R306 to R308) -/

/-- The earlier of the two answers, by its direction: a rising edge is reported with level 1. -/
theorem firstEvent_of_first {hit : EdgeDir → Option Hit} {dir : EdgeDir} {a : Hit} (ha : hit dir = some a)
    (hfirst : ∀ dir' b, dir' ≠ dir → hit dir' = some b → a.time < b.time) :
    firstEvent (hit .rising) (hit .falling) = some (a.time, decide (dir = .rising)) := by
  cases dir with
  | rising =>
    cases hfall : hit .falling with
    | none => rw [ha]; rfl
    | some b => rw [ha, firstEvent, if_pos (hfirst .falling b nofun hfall)]; rfl
  | falling =>
    cases hrise : hit .rising with
    | none => rw [ha]; rfl
    | some b => rw [ha, firstEvent, if_neg (hfirst .rising b nofun hrise).not_gt]; rfl

section
variable {s : State} {l : Lane} (hlane : currentLane s.uaWork = some l)
include hlane

/-- UART.HS without another change of the line ends the lane. -/
theorem uaHs_of_none (hpending : s.uaOut.status.cancelPending = false)
    (hnone : ∀ dir, findEdge s.samples s.uaWork.cursor s.uaWork.tEnd (chanMask l.chan) dir = none) :
    uaHs s = .next { s with uaPc := .nextLane } := by
  simp only [uaHs, hpending, Bool.false_eq_true, if_false, hlane, hnone, firstEvent]

/-- UART.HS holds the event found for the step after it. -/
theorem uaHs_of_event {t : Int} {high : Bool} (hpending : s.uaOut.status.cancelPending = false)
    (hevent : firstEvent (findEdge s.samples s.uaWork.cursor s.uaWork.tEnd (chanMask l.chan) .rising)
      (findEdge s.samples s.uaWork.cursor s.uaWork.tEnd (chanMask l.chan) .falling) = some (t, high)) :
    uaHs s = .next { s with uaPc := .hsEvent, uaWork := { s.uaWork with evTime := t, evLevel := high } } := by
  simp only [uaHs, hpending, Bool.false_eq_true, if_false, hlane, hevent]

end

/-- The label of a handshake line's event: twice the line's number plus the level (30_encoding.md R124). -/
theorem labelCode_toNat (k : LaneKind) (high : Bool) : (labelCode k high).toNat = 2 * handshakeLine k + high.toNat := by
  cases k <;> cases high <;> rfl

/-- The handshake lines are numbered from CTS to RI (30_encoding.md R124). -/
theorem handshakeLine_of_getElem? {k : LaneKind} {line : Nat}
    (hline : [LaneKind.cts, .rts, .dtr, .dsr, .dcd, .ri][line]? = some k) : handshakeLine k = line := by
  obtain ⟨hlt, rfl⟩ := List.getElem?_eq_some_iff.1 hline
  have hlt' : line < 6 := hlt
  interval_cases line <;> rfl

theorem encode_uaEvent (chan : Byte) (label : BitVec 4) (start stop : Word) :
    encode (.uaEvent chan label start stop) = .record [headerWord 0x31 chan.toNat label.toNat 0 2, start, stop] := by
  have hsub : (0#4 ++ label : BitVec (4 + 4)).toNat = label.toNat := by revert label; decide
  rw [← hsub]
  exact congrArg (OpWord.record [·, start, stop]) (Header.word_eq _)

/-- UART.HSEVENT reports the event as a point and takes the cursor there. -/
theorem uaHsEvent_eq {s : State} {l : Lane} (hlane : currentLane s.uaWork = some l) :
    uaHsEvent s = .next { s with
      uaPc := .progress
      uaWork := { s.uaWork with cursor := s.uaWork.evTime }
      ops := .record [headerWord 0x31 l.chan.toNat (2 * handshakeLine l.kind + s.uaWork.evLevel.toNat) 0 2,
        intWord s.uaWork.evTime, intWord s.uaWork.evTime] :: s.ops } := by
  simp only [uaHsEvent, hlane, form_singleton, encode_uaEvent, labelCode_toNat]

/-- Settles O48: the rules of the two steps, on the state with the UART engine executing. -/
theorem uartHandshakeReportsEdges : Obligations.UartHandshakeReportsEdges := by
  intro s l line hr hlane hline
  rw [engineTurn_uart hr, uaStep]
  refine ⟨fun hpc hpending hnone => ?_, fun dir a hpc hpending ha hfirst => ?_, fun hpc => ?_⟩ <;> rw [hpc]
  · exact uaHs_of_none (s := { s with cur := .uart }) hlane hpending hnone
  · exact uaHs_of_event (s := { s with cur := .uart }) hlane hpending (firstEvent_of_first ha hfirst)
  · rw [← handshakeLine_of_getElem? hline]
    exact uaHsEvent_eq (s := { s with cur := .uart }) hlane

end Sys2Proof.Machine
end

section
/-!
PROOFS. Family 45_emitter.md, the records carried out: CLEAR and PROGRESS (R344, R347), END (R349), and the symbols of the three
engines (R350 to R356), each with its words and what it counts.
-/

namespace Sys2Proof.Machine

/-! ## CLEAR, PROGRESS and END (45_emitter.md R344, R347, R349) -/

/-- The words of an emitted CLEAR record (45_emitter.md R344). -/
theorem recordWords_clear (chan : Byte) : recordWords (.clear chan) = [headerWord 0x01 chan.toNat 0 0 0] :=
  OpWord.record.inj (encode_clear chan)

/-- A byte written to a register is the number it holds. -/
theorem setWidth_eq_natWord (b : Byte) : b.setWidth 64 = natWord b.toNat := (BitVec.ofNat_toNat 64 b).symm

/-- Settles O18: the words of the two records, and the emitter's rules on the executing engine. -/
theorem clearAndProgressGoToStream : Obligations.ClearAndProgressGoToStream := by
  intro chan percent s
  refine ⟨encode_clear chan, encode_progress percent, ?_, ?_⟩
  · rw [exec, execClear, emit_eq, recordWords_clear]
  · rw [exec, execProgress, emitProgress_eq, recordWords_progress, setWidth_eq_natWord]

/-- A `STATE` code above 4 is no run state (30_encoding.md R123). -/
theorem runState_ofCode_eq_none {st : Byte} (h : 4 < st.toNat) : RunState.ofCode st = none := by
  unfold RunState.ofCode
  split <;> first | rfl | omega

/-- A `CODE` value above 2 is no failure code (30_encoding.md R123). -/
theorem failCode_ofCode_eq_none {code : Byte} (h : 2 < code.toNat) : FailCode.ofCode code = none := by
  unfold FailCode.ofCode
  split <;> first | rfl | omega

/-- END with the codes of a run state and a failure code: the record and the status register in one step (45_emitter.md R349). -/
theorem exec_endRun_of_codes (st : RunState) (code : FailCode) (sym err : Word) (s : State) :
    exec (.endRun st.code code.code sym err) s = .next (s.setOut s.cur { s.out s.cur with
      status := ⟨st, code, false⟩
      stream := (s.out s.cur).stream ++ [[headerWord 0x03 0xFF st.code.toNat code.code.toNat 2, sym, err]] }) := by
  simp only [exec, execEndRun, RunState.ofCode_code, FailCode.ofCode_code, takeEnd_eq, recordWords_endRun]

/-- END with a code no engine has is malformed (93_implementation_defined.md U9). -/
theorem exec_endRun_of_no_code {st code : Byte} (h : RunState.ofCode st = none ∨ FailCode.ofCode code = none) (sym err : Word)
    (s : State) : exec (.endRun st code sym err) s = .fault .malformedRecord := by
  rcases h with h | h
  · simp only [exec, execEndRun, h]
  · cases hst : RunState.ofCode st <;> simp only [exec, execEndRun, hst, h]

/-- Settles O19: END with codes that are read back, and END with a code out of range. -/
theorem endRecordWritesStatus : Obligations.EndRecordWritesStatus := fun sym err s =>
  ⟨fun st code => exec_endRun_of_codes st code sym err s,
    fun _ _ h => exec_endRun_of_no_code (h.imp runState_ofCode_eq_none failCode_ofCode_eq_none) sym err s⟩

/-! ## The symbols (45_emitter.md R350 to R356) -/

/-- Carrying out a symbol appends its record and counts it, in the engine its kind names (45_emitter.md R342, R343). -/
theorem exec_symbol {i : Instr} {e : EngineId} (hsym : symbolEngine i = some e) (s : State) :
    exec i s = .next (appendSymbol e (recordWords i) (errorWeight i) s) := by
  cases i
  case owReset | owByte | owBusError | jtState | jtShiftTdi | jtShiftTdo | uaDataRx | uaDataTx | uaEvent => cases hsym; rfl
  all_goals cases hsym

/-- A symbol is encoded as a record. -/
theorem encode_symbol {i : Instr} {e : EngineId} (hsym : symbolEngine i = some e) : encode i = .record (recordWords i) := by
  cases i
  case owReset | owByte | owBusError | jtState | jtShiftTdi | jtShiftTdo | uaDataRx | uaDataTx | uaEvent => rfl
  all_goals cases hsym

/-- A symbol's words and what carrying it out does, for known words and a known error weight. -/
theorem symbol_appends {i : Instr} {e : EngineId} {r : Record} {weight : Nat} (hsym : symbolEngine i = some e)
    (hweight : errorWeight i = weight) (hr : encode i = .record r) (s : State) :
    encode i = .record r ∧ exec i s = .next (appendSymbol e r weight s) := by
  obtain rfl : recordWords i = r := OpWord.record.inj ((encode_symbol hsym).symm.trans hr)
  subst hweight
  exact ⟨hr, exec_symbol hsym s⟩

/-- A symbol that is no error leaves the error counter (45_emitter.md R343). -/
theorem appendSymbol_zero (e : EngineId) (r : Record) (s : State) :
    appendSymbol e r 0 s = s.setOut e { s.out e with
      result := (s.out e).result ++ [r]
      stream := (s.out e).stream ++ [r]
      symcnt := (s.out e).symcnt + 1#64 } := by
  simp [appendSymbol, natWord]

/-- Settles O20: the words of each symbol, and what a symbol carried out appends and counts. -/
theorem oneWireSymbolsAppendAndCount : Obligations.OneWireSymbolsAppendAndCount := by
  rintro chan value present start stop s i r err (⟨rfl, rfl, rfl⟩ | ⟨rfl, rfl, rfl⟩ | ⟨rfl, rfl, rfl⟩)
  · exact symbol_appends (e := .ow) (weight := 0) rfl rfl (encode_owReset chan present start stop) s
  · exact symbol_appends (e := .ow) (weight := 0) rfl rfl (encode_owByte chan value start stop) s
  · exact symbol_appends (e := .ow) (weight := 1) rfl rfl (encode_owBusError chan start stop) s

/-- The words of a JT_SHIFT record of the TDI line (30_encoding.md R116). -/
theorem encode_jtShiftTdi (chan : Byte) (body : List Word) :
    encode (.jtShiftTdi chan body) = .record (headerWord 0x21 chan.toNat 0 0x80 (lenField body.length).toNat :: body) :=
  congrArg (fun w => OpWord.record (w :: body)) (Header.word_eq _)

/-- The words of a JT_SHIFT record of the TDO line (30_encoding.md R116). -/
theorem encode_jtShiftTdo (chan : Byte) (body : List Word) :
    encode (.jtShiftTdo chan body) = .record (headerWord 0x21 chan.toNat 1 0x80 (lenField body.length).toNat :: body) :=
  congrArg (fun w => OpWord.record (w :: body)) (Header.word_eq _)

/-- A JTAG symbol's words and what carrying it out does: none is an error (45_emitter.md R353, R354). -/
theorem jtagSymbol_appends {i : Instr} {r : Record} (hsym : symbolEngine i = some .jtag) (hweight : errorWeight i = 0)
    (hr : encode i = .record r) (s : State) :
    encode i = .record r ∧ exec i s = .next { s with jtOut := { s.jtOut with
      result := s.jtOut.result ++ [r], stream := s.jtOut.stream ++ [r], symcnt := s.jtOut.symcnt + 1#64 } } := by
  have happends := symbol_appends hsym hweight hr s
  rwa [appendSymbol_zero] at happends

/-- Settles O21: the words of each symbol, the LEN of a JT_SHIFT being `lenField`, and what a symbol carried out appends and counts. -/
theorem jtagSymbolsAppendAndCount : Obligations.JtagSymbolsAppendAndCount := by
  intro chan s
  refine ⟨fun state start stop => jtagSymbol_appends rfl rfl (encode_jtState chan state start stop) s,
    fun body => ⟨lenField body.length, lenField_toNat, ?_⟩⟩
  obtain ⟨htdi, htdiExec⟩ := jtagSymbol_appends rfl rfl (encode_jtShiftTdi chan body) s
  obtain ⟨htdo, htdoExec⟩ := jtagSymbol_appends rfl rfl (encode_jtShiftTdo chan body) s
  exact ⟨htdi, htdiExec, htdo, htdoExec⟩

/-- Settles O22: the words of each symbol, and what a symbol carried out appends and counts. -/
theorem uartSymbolsAppendAndCount : Obligations.UartSymbolsAppendAndCount := by
  rintro chan value pe fe label start stop s i r err (⟨rfl, rfl, rfl⟩ | ⟨rfl, rfl, rfl⟩ | ⟨rfl, rfl, rfl⟩)
  · exact symbol_appends (e := .uart) (weight := pe.toNat + fe.toNat) rfl rfl (encode_uaDataRx chan value pe fe start stop) s
  · exact symbol_appends (e := .uart) (weight := pe.toNat + fe.toNat) rfl rfl (encode_uaDataTx chan value pe fe start stop) s
  · exact symbol_appends (e := .uart) (weight := 0) rfl rfl (encode_uaEvent chan label start stop) s

end Sys2Proof.Machine
end

section
/-!
PROOFS. Family 45_emitter.md, progress: the percentages of a run never decrease and are at most 100 (R348).
-/

namespace Sys2Proof.Machine

/-- The byte of a clamped percentage, as a number. -/
theorem ofInt_clamp_toNat_eq (x : Int) : (BitVec.ofInt 8 (clamp x 0 100)).toNat = (max 0 (min 100 x)).toNat :=
  ofInt_clamp_toNat (Int.toNat_of_nonneg (le_max_left 0 _))

/-- A clamped percentage grows with what is clamped, and is at most 100. -/
theorem ofInt_clamp_mono {x y : Int} (h : x ≤ y) :
    (BitVec.ofInt 8 (clamp x 0 100)).toNat ≤ (BitVec.ofInt 8 (clamp y 0 100)).toNat
      ∧ (BitVec.ofInt 8 (clamp y 0 100)).toNat ≤ 100 := by
  rw [ofInt_clamp_toNat_eq, ofInt_clamp_toNat_eq]
  omega

/-- What is done of the lanes before `k` and of lane `k` grows with the lane, and within a lane with the cursor (44_uart.md R305). -/
theorem laneDone_mono {j k : Nat} {a b whole : Int} (hwhole : 0 < whole) (hle : j < k ∨ j = k ∧ a ≤ b) :
    (j : Int) * whole + clamp a 0 whole ≤ k * whole + clamp b 0 whole := by
  have hclamp : ∀ x, 0 ≤ clamp x 0 whole ∧ clamp x 0 whole ≤ whole := fun x => by unfold clamp; omega
  rcases hle with hlt | ⟨rfl, hab⟩
  · calc (j : Int) * whole + clamp a 0 whole
        ≤ j * whole + whole := Int.add_le_add_left (hclamp a).2 _
      _ = ((j + 1 : Nat) : Int) * whole := by push_cast; ring
      _ ≤ k * whole := Int.mul_le_mul_of_nonneg_right (Int.ofNat_le.2 hlt) hwhole.le
      _ ≤ k * whole + clamp b 0 whole := Int.le_add_of_nonneg_right (hclamp b).1
  · have hmono : clamp a 0 whole ≤ clamp b 0 whole := by unfold clamp; omega
    exact Int.add_le_add_left hmono _

/-- Settles O36: both percentages are clamped quotients whose numerator grows over a fixed positive divisor. -/
theorem progressNeverDecreases : Obligations.ProgressNeverDecreases := by
  refine ⟨fun a b whole hwhole hab => ?_, fun j k lanes a b whole hwhole hj _ hle => ?_⟩
  · exact ofInt_clamp_mono (Int.ediv_le_ediv hwhole (Int.mul_le_mul_of_nonneg_right hab (by decide)))
  · have hlanes : 0 < (lanes : Int) * whole := Int.mul_pos (by omega) hwhole
    exact ofInt_clamp_mono
      (Int.ediv_le_ediv hlanes (Int.mul_le_mul_of_nonneg_right (laneDone_mono hwhole hle) (by decide)))

end Sys2Proof.Machine
end

section
/-!
PROOFS. Family 45_emitter.md, the output side: every step keeps the result memory, the stream, the counters, progress and the pending
bit of every engine legal (R342, R343, 20_memory.md R87, 46_host_commands.md R388).
-/

namespace Sys2Proof.Machine

/-! ## What a legal output side is -/

/-- `outputLegal` with its clauses named. -/
structure OutputLegal (e : EngineId) (o : EngineOut) : Prop where
  symbols : ∀ r ∈ o.result, ownSymbol e r = true
  records : ∀ r ∈ o.stream, ownRecord e r = true
  symcnt : o.symcnt = natWord o.result.length
  errcnt : o.errcnt = natWord (o.result.map recordWeight).sum
  progress : o.progress.toNat ≤ 100
  pending : o.status.cancelPending = true → o.status.state = .running

theorem outputLegal_iff {e : EngineId} {o : EngineOut} : outputLegal e o = true ↔ OutputLegal e o := by
  have hpending : (!o.status.cancelPending || o.status.state == .running) = true
      ↔ (o.status.cancelPending = true → o.status.state = .running) := by
    cases o.status.cancelPending <;> simp
  simp only [outputLegal, Bool.and_eq_true, List.all_eq_true, beq_iff_eq, decide_eq_true_eq, hpending]
  exact ⟨fun ⟨⟨⟨⟨⟨hs, hr⟩, hsym⟩, herr⟩, hprog⟩, hpend⟩ => ⟨hs, hr, hsym, herr, hprog, hpend⟩,
    fun ⟨hs, hr, hsym, herr, hprog, hpend⟩ => ⟨⟨⟨⟨⟨hs, hr⟩, hsym⟩, herr⟩, hprog⟩, hpend⟩⟩

theorem outputsLegal_iff {s : State} : s.outputsLegal = true ↔ ∀ e, OutputLegal e (s.out e) := by
  simp only [State.outputsLegal, Bool.and_eq_true, outputLegal_iff]
  exact ⟨fun ⟨⟨how, hjt⟩, hua⟩ e => by cases e <;> assumption, fun h => ⟨⟨h .ow, h .jtag⟩, h .uart⟩⟩

/-! ## Records of well-formed operations -/

/-- The record of a well-formed operation is read as that operation. -/
theorem readWord_of_encode {i : Instr} {w : OpWord} (hw : encode i = w) (hwf : i.wf = true) : readWord w = some i :=
  readWord_eq_some.2 ⟨hw ▸ decode_encode i, hwf⟩

/-- A stream may hold the record of a stream-only operation (45_emitter.md R340). -/
theorem ownRecord_of_streamOnly {i : Instr} {r : Record} (hr : encode i = .record r) (hwf : i.wf = true)
    (honly : symbolEngine i = none) (e : EngineId) : ownRecord e r = true := by
  simp only [ownRecord, readWord_of_encode hr hwf, honly, beq_self_eq_true, Bool.true_or]

/-- A symbol of the engine may stand in its result memory and in its stream, with the symbol's weight (45_emitter.md R342, R343). -/
theorem own_of_symbol {i : Instr} {e : EngineId} (hwf : i.wf = true) (hsym : symbolEngine i = some e) :
    ownSymbol e (recordWords i) = true ∧ ownRecord e (recordWords i) = true ∧ recordWeight (recordWords i) = errorWeight i := by
  have hread := readWord_of_encode (encode_symbol hsym) hwf
  have hdecode : decodeRecord (recordWords i) = .ok i := (readWord_eq_some.1 hread).1
  simp only [ownSymbol, ownRecord, recordWeight, hread, hsym, hdecode, beq_self_eq_true, Bool.or_true, and_self]

/-! ## What the emitter's rules write is legal -/

namespace OutputLegal

variable {e : EngineId} {o : EngineOut}

/-- One more record in the stream (45_emitter.md R340). -/
theorem streamed (h : OutputLegal e o) {r : Record} (hr : ownRecord e r = true) :
    OutputLegal e { o with stream := o.stream ++ [r] } :=
  { h with records := List.forall_mem_append.2 ⟨h.records, List.forall_mem_singleton.2 hr⟩ }

/-- One more symbol, counted with its weight (45_emitter.md R342, R343). -/
theorem appended (h : OutputLegal e o) {r : Record} (hsym : ownSymbol e r = true) :
    OutputLegal e { o with
      result := o.result ++ [r]
      symcnt := o.symcnt + 1#64
      errcnt := o.errcnt + natWord (recordWeight r) } :=
  { h with
    symbols := List.forall_mem_append.2 ⟨h.symbols, List.forall_mem_singleton.2 hsym⟩
    symcnt := by simp [h.symcnt, natWord, BitVec.ofNat_add]
    errcnt := by simp [h.errcnt, natWord, BitVec.ofNat_add] }

/-- Another percentage (45_emitter.md R347). -/
theorem progressed (h : OutputLegal e o) {percent : Byte} (hp : percentLegal percent = true) :
    OutputLegal e { o with progress := percent.setWidth 64 } := by
  have hle : percent.toNat ≤ 100 := of_decide_eq_true hp
  exact { h with progress := by rw [BitVec.toNat_setWidth_of_le (by decide)]; exact hle }

/-- Another status, with a CANCEL pending only while RUNNING (46_host_commands.md R388). -/
theorem withStatus (h : OutputLegal e o) {st : Status} (hst : st.cancelPending = true → st.state = .running) :
    OutputLegal e { o with status := st } :=
  { h with pending := hst }

/-- The stream without its first record (46_host_commands.md R393). -/
theorem consumed (h : OutputLegal e o) {r : Record} {rest : List Record} (hstream : o.stream = r :: rest) :
    OutputLegal e { o with stream := rest } :=
  { h with records := fun x hx => h.records x (hstream ▸ List.mem_cons_of_mem r hx) }

/-- What an accepted START leaves: nothing counted, and the stream (46_host_commands.md R383). -/
theorem started (h : OutputLegal e o) : OutputLegal e ⟨⟨.running, .none, false⟩, 0#64, 0#64, 0#64, o.stream, []⟩ where
  symbols := by simp
  records := h.records
  symcnt := rfl
  errcnt := rfl
  progress := Nat.zero_le 100
  pending := nofun

end OutputLegal

/-! ## Operations, actions and turns -/

/-- A state with the same output sides is as legal. -/
theorem outputsLegal_of_out_eq {s t : State} (hs : s.outputsLegal = true) (h : ∀ e, t.out e = s.out e) : t.outputsLegal = true :=
  outputsLegal_iff.2 fun e => h e ▸ outputsLegal_iff.1 hs e

/-- One output side replaced by a legal one. -/
theorem outputsLegal_setOut {s : State} {e : EngineId} {o : EngineOut} (hs : s.outputsLegal = true) (ho : OutputLegal e o) :
    (s.setOut e o).outputsLegal = true := by
  refine outputsLegal_iff.2 fun f => ?_
  by_cases hf : f = e
  · subst hf
    rwa [out_setOut]
  · rw [out_setOut_ne hf]
    exact outputsLegal_iff.1 hs f

/-- An answer whose next state, if it has one, has legal output sides. -/
def NextOutputsLegal (r : Result) : Prop := ∀ t, r = .next t → t.outputsLegal = true

theorem nextOutputsLegal_next {t : State} : NextOutputsLegal (.next t) ↔ t.outputsLegal = true :=
  ⟨fun h => h t rfl, fun h _ ht => Host.Outcome.next.inj ht ▸ h⟩

theorem nextOutputsLegal_fault (r : Fault) : NextOutputsLegal (.fault r) := fun _ h => by cases h

theorem outputsLegal_acceptStart (e : EngineId) {s : State} (hs : s.outputsLegal = true) : (acceptStart e s).outputsLegal = true :=
  outputsLegal_of_out_eq (outputsLegal_setOut hs (outputsLegal_iff.1 hs e).started) fun f => by cases e <;> cases f <;> rfl

/-- A START whose START step writes no output side (46_host_commands.md R382). -/
theorem startEngine_outputsLegal {e : EngineId} {ok : Bool} {k : State → Result} {s : State} (hs : s.outputsLegal = true)
    (hk : ∀ {u t}, k u = .next t → ∀ f, t.out f = u.out f) : NextOutputsLegal (startEngine e ok k s) := by
  rcases startEngine_cases e ok k s with ⟨-, heq⟩ | ⟨-, -, heq⟩ | ⟨-, -, heq⟩ <;> rw [heq]
  · exact nextOutputsLegal_next.2 hs
  · rw [refuseStart_eq]
    exact nextOutputsLegal_next.2 (outputsLegal_setOut hs ((outputsLegal_iff.1 hs e).withStatus nofun))
  · exact fun t ht => outputsLegal_of_out_eq (outputsLegal_acceptStart e hs) (hk ht)

/-- CANCEL raises the pending bit of a RUNNING engine only (46_host_commands.md R387). -/
theorem outputsLegal_cancelEngine (e : EngineId) {s : State} (hs : s.outputsLegal = true) :
    (cancelEngine e s).outputsLegal = true := by
  rcases cancelEngine_cases e s with ⟨hr, heq⟩ | ⟨-, heq⟩ <;> rw [heq]
  · exact outputsLegal_setOut hs ((outputsLegal_iff.1 hs e).withStatus fun _ => hr)
  · exact hs

theorem outputsLegal_blockReset (s : State) : (blockReset s).outputsLegal = true :=
  outputsLegal_iff.2 fun e => by
    rw [blockReset_out]
    exact outputLegal_iff.1 (outputLegal_reset e)

/-- A well-formed symbol carried out (45_emitter.md R342, R343). -/
theorem exec_symbol_outputsLegal {i : Instr} {e : EngineId} (hwf : i.wf = true) (hsym : symbolEngine i = some e) {s : State}
    (hs : s.outputsLegal = true) : NextOutputsLegal (exec i s) := by
  obtain ⟨hown, hrecord, hweight⟩ := own_of_symbol hwf hsym
  rw [exec_symbol hsym, ← hweight]
  exact nextOutputsLegal_next.2 (outputsLegal_setOut hs (((outputsLegal_iff.1 hs e).appended hown).streamed hrecord))

/-- A well-formed END carried out: the engine is RUNNING no more, and no CANCEL is pending (45_emitter.md R349). -/
theorem execEndRun_outputsLegal {st code : Byte} {sym err : Word} (hwf : (Instr.endRun st code sym err).wf = true) {s : State}
    (hs : s.outputsLegal = true) : NextOutputsLegal (execEndRun st code sym err s) := by
  obtain ⟨rs, fc, hst, hcode, -⟩ := endRun_codes hwf
  have hrecord := ownRecord_of_streamOnly (i := .endRun st code sym err) rfl hwf rfl s.cur
  simp only [execEndRun, hst, hcode, takeEnd_eq, nextOutputsLegal_next]
  exact outputsLegal_setOut hs (((outputsLegal_iff.1 hs s.cur).withStatus (st := ⟨rs, fc, false⟩) nofun).streamed hrecord)

/-- A well-formed operation carried out keeps the output sides legal. -/
theorem exec_outputsLegal {i : Instr} (hwf : i.wf = true) {s : State} (hs : s.outputsLegal = true) : NextOutputsLegal (exec i s) := by
  have hcur := outputsLegal_iff.1 hs s.cur
  cases i with
  | startOw =>
    refine startEngine_outputsLegal hs fun h f => ?_
    obtain ⟨w, pc, formed, rfl⟩ := owStart_writes h
    cases f <;> rfl
  | startJtag =>
    refine startEngine_outputsLegal hs fun h f => ?_
    obtain ⟨w, pc, formed, rfl⟩ := jtStart_writes h
    cases f <;> rfl
  | startUart =>
    refine startEngine_outputsLegal hs fun h f => ?_
    obtain ⟨w, pc, formed, rfl⟩ := uaStart_writes h
    cases f <;> rfl
  | cancelOw | cancelJtag | cancelUart => exact nextOutputsLegal_next.2 (outputsLegal_cancelEngine _ hs)
  | valueAt | findEdge =>
    refine nextOutputsLegal_next.2 (outputsLegal_of_out_eq hs fun f => ?_)
    obtain ⟨hout, -, -⟩ := storeAnswer_out _ s f
    exact hout
  | reset => exact nextOutputsLegal_next.2 (outputsLegal_blockReset s)
  | clear chan =>
    have hrecord := ownRecord_of_streamOnly (i := .clear chan) rfl hwf rfl s.cur
    exact nextOutputsLegal_next.2 (outputsLegal_setOut hs (hcur.streamed hrecord))
  | progress percent =>
    have hrecord := ownRecord_of_streamOnly (i := .progress percent) rfl hwf rfl s.cur
    rw [exec, execProgress, emitProgress_eq]
    exact nextOutputsLegal_next.2 (outputsLegal_setOut hs ((hcur.progressed hwf).streamed hrecord))
  | endRun => exact execEndRun_outputsLegal hwf hs
  | owReset | owByte | owBusError | jtState | jtShiftTdi | jtShiftTdo | uaDataRx | uaDataTx | uaEvent =>
    exact exec_symbol_outputsLegal hwf rfl hs
  | clsUnknown | clsOne | clsZero | clsReset
  | tapTestLogicReset0 | tapTestLogicReset1 | tapRunTestIdle0 | tapRunTestIdle1 | tapSelectDr0 | tapSelectDr1
  | tapCaptureDr0 | tapCaptureDr1 | tapShiftDr0 | tapShiftDr1 | tapExit1Dr0 | tapExit1Dr1 | tapPauseDr0 | tapPauseDr1
  | tapExit2Dr0 | tapExit2Dr1 | tapUpdateDr0 | tapUpdateDr1 | tapSelectIr0 | tapSelectIr1 | tapCaptureIr0 | tapCaptureIr1
  | tapShiftIr0 | tapShiftIr1 | tapExit1Ir0 | tapExit1Ir1 | tapPauseIr0 | tapPauseIr1 | tapExit2Ir0 | tapExit2Ir1
  | tapUpdateIr0 | tapUpdateIr1 => exact nextOutputsLegal_next.2 (outputsLegal_of_out_eq hs fun f => by cases f <;> rfl)

/-- A word that is rejected writes no output side (46_host_commands.md R392). -/
theorem rejectWord_outputsLegal {w : OpWord} {s : State} (hs : s.outputsLegal = true) : NextOutputsLegal (rejectWord w s) := by
  cases w with
  | cmd v => exact nextOutputsLegal_next.2 (outputsLegal_of_out_eq hs fun f => by cases f <;> rfl)
  | record | tap | cls => exact nextOutputsLegal_fault _

/-- A turn of an engine writes no output side: what it reports waits as words (log 7). -/
theorem engineTurn_outputsLegal {e : EngineId} {s : State} (hs : s.outputsLegal = true) : NextOutputsLegal (engineTurn e s) := by
  intro t ht
  obtain ⟨-, -, hout, -⟩ := engineTurn_writes ht
  exact outputsLegal_of_out_eq hs hout

/-- A register write writes no output side (46_host_commands.md R381). -/
theorem writeReg_out (number : Nat) (v : Word) (s : State) (e : EngineId) : (writeReg number v s).out e = s.out e := by
  unfold writeReg
  split
  · rename_i r _
    cases r <;> cases e <;> rfl
  · rfl

theorem outputsLegal_consumeRecord (e : EngineId) {s : State} (hs : s.outputsLegal = true) :
    (consumeRecord e s).outputsLegal = true := by
  rcases consumeRecord_cases e s with ⟨-, heq⟩ | ⟨r, rest, hstream, heq⟩ <;> rw [heq]
  · exact outputsLegal_of_out_eq hs fun f => by cases f <;> rfl
  · exact outputsLegal_of_out_eq (outputsLegal_setOut hs ((outputsLegal_iff.1 hs e).consumed hstream)) fun f => by cases f <;> rfl

/-- An outside action keeps the output sides legal. -/
theorem act_outputsLegal {a : HostAct} {s : State} (hs : s.outputsLegal = true) : NextOutputsLegal (act a s) := by
  cases a with
  | readReg | readResult => exact nextOutputsLegal_next.2 (outputsLegal_of_out_eq hs fun f => by cases f <;> rfl)
  | writeReg number v => exact nextOutputsLegal_next.2 (outputsLegal_of_out_eq hs (writeReg_out number v s))
  | consume e => exact nextOutputsLegal_next.2 (outputsLegal_consumeRecord e hs)
  | resetInput => exact nextOutputsLegal_next.2 (outputsLegal_blockReset s)
  | turn e => exact engineTurn_outputsLegal hs
  | capture m r g =>
    rw [act]
    rcases loadCapture_cases m r g s with ⟨-, heq⟩ | ⟨-, heq⟩ <;> rw [heq]
    · exact nextOutputsLegal_next.2 (outputsLegal_of_out_eq hs fun f => by cases f <;> rfl)
    · exact nextOutputsLegal_fault _

/-- Settles O58: what a step can be, and for each that it leaves every output side legal. -/
theorem outputsStayLegal : Obligations.OutputsStayLegal := by
  intro s t hs ht
  have hless : ∀ ops inbox tick, ({ s with ops := ops, inbox := inbox, tick := tick } : State).outputsLegal = true :=
    fun _ _ _ => outputsLegal_of_out_eq hs fun f => by cases f <;> rfl
  rcases step_cases s with ⟨w, rest, i, -, hread, heq⟩ | ⟨w, rest, -, -, heq⟩ | ⟨a, rest, -, -, heq⟩ | ⟨e, k, -, -, heq⟩ |
    ⟨-, -, heq⟩ <;> rw [heq] at ht
  · exact exec_outputsLegal (readWord_eq_some.1 hread).2 (hless rest s.inbox s.tick) t ht
  · exact rejectWord_outputsLegal (hless rest s.inbox s.tick) t ht
  · exact act_outputsLegal (hless s.ops rest s.tick) t ht
  · exact engineTurn_outputsLegal (hless s.ops s.inbox k) t ht
  · exact nextOutputsLegal_next.2 hs t ht

end Sys2Proof.Machine
end

section
/-!
PROOFS. Family 46_host_commands.md, the registers: what a host read and a host write of each register number do (R381, 10_state.md R23,
R40 to R55), and how the host takes records from a stream and reads a result (R393).
-/

namespace Sys2Proof.Machine

/-! ## The register map (10_state.md R23, R41 to R55) -/

/-- The number of a named register: the register map read backwards. -/
def Reg.number (r : Reg) : Nat :=
  match r with
  | .sbCount => 0x00
  | .sbRate => 0x01
  | .sbTrig => 0x02
  | .blkStatus => 0x06
  | .cmd => 0x07
  | .prT0 => 0x08
  | .prT1 => 0x09
  | .prMask => 0x0A
  | .prDir => 0x0B
  | .prResIdx => 0x0C
  | .prResTs => 0x0D
  | .prResVal => 0x0E
  | .prStat => 0x0F
  | .owWinS => 0x10
  | .owWinE => 0x11
  | .owLine => 0x12
  | .owMode => 0x13
  | .jtWinS => 0x20
  | .jtWinE => 0x21
  | .jtTck => 0x22
  | .jtTms => 0x23
  | .jtTdi => 0x24
  | .jtTdo => 0x25
  | .uaWinS => 0x30
  | .uaWinE => 0x31
  | .uaRxd => 0x32
  | .uaTxd => 0x33
  | .uaCts => 0x34
  | .uaRts => 0x35
  | .uaDtr => 0x36
  | .uaDsr => 0x37
  | .uaDcd => 0x38
  | .uaRi => 0x39
  | .uaFrame => 0x3A
  | .uaBaud => 0x3B
  | .status e => statusNumber e
  | .progress e => statusNumber e + 1
  | .symcnt e => statusNumber e + 2
  | .errcnt e => statusNumber e + 3
  | .profile mode w k => (if mode = .overdrive then 0x60 else 0x40) + 2 * w + k
where
  /-- The number of an engine's status register; its progress register and its two counters follow. -/
  statusNumber : EngineId → Nat
    | .ow => 0x18
    | .jtag => 0x28
    | .uart => 0x3C

/-- A register has one number: no two numbers name one register. -/
theorem number_of_regOf {n : Nat} {r : Reg} (h : regOf n = some r) : r.number = n := by
  have hle : n ≤ 0x71 := by
    by_contra hgt
    rw [regOf_eq_none_of_gt (by omega)] at h
    cases h
  have hmap : ∀ m ≤ 0x71, (regOf m).all (fun x => x.number == m) = true := by decide
  have hn := hmap n hle
  rw [h] at hn
  exact beq_iff_eq.1 hn

/-- The numbers of the profile image name its bounds (10_state.md R55). -/
theorem regOf_of_profileReg {n : Nat} (h : profileReg n) : ∃ mode w k, regOf n = some (.profile mode w k) := by
  unfold profileReg at h
  unfold regOf
  split
  -- the last branch of the map holds the two profile images, the others one number below them each
  case h_48 =>
    rcases h with hstandard | hoverdrive
    · exact ⟨_, _, _, if_pos hstandard⟩
    · exact ⟨_, _, _, by rw [if_neg (by omega), if_pos hoverdrive]⟩
  all_goals omega

/-- Every number but those of a register the host writes, a read-only one, the profile image, `BLK_STATUS` and `CMD` is a hole. -/
theorem regOf_eq_none {n : Nat} (hstored : n ∉ storedRegs) (hread : n ∉ readOnlyRegs) (hprofile : ¬profileReg n)
    (hblk : n ≠ 0x06) (hcmd : n ≠ 0x07) : regOf n = none := by
  have hmap : ∀ m ≤ 0x71, m ∈ storedRegs ∨ m ∈ readOnlyRegs ∨ (0x40 ≤ m ∧ m ≤ 0x51 ∨ 0x60 ≤ m ∧ m ≤ 0x71) ∨ m = 0x06 ∨ m = 0x07 ∨
      regOf m = none := by decide
  by_cases hle : n ≤ 0x71
  · exact (((((hmap n hle).resolve_left hstored).resolve_left hread).resolve_left hprofile).resolve_left hblk).resolve_left hcmd
  · exact regOf_eq_none_of_gt (by omega)

/-! ## Register writes (46_host_commands.md R381) -/

/-- A write to a named register changes no other register. -/
theorem readNamed_writeNamed_ne {r r' : Reg} (hne : r' ≠ r) (v : Word) (s : State) :
    readNamed (writeNamed r v s) r' = readNamed s r' := by
  cases r with
  | sbCount | sbRate | sbTrig | prResIdx | prResTs | prResVal | prStat | status | progress | symcnt | errcnt | profile => rfl
  | cmd => cases r' <;> rfl
  | blkStatus | prT0 | prT1 | prMask | prDir | owWinS | owWinE | owLine | owMode | jtWinS | jtWinE | jtTck | jtTms | jtTdi | jtTdo
  | uaWinS | uaWinE | uaRxd | uaTxd | uaCts | uaRts | uaDtr | uaDsr | uaDcd | uaRi | uaFrame | uaBaud =>
    cases r' <;> first | rfl | exact absurd rfl hne

/-- A write to a register number changes what no other number reads. -/
theorem readReg_writeReg_ne {n k : Nat} (hne : k ≠ n) (v : Word) (s : State) : readReg (writeReg n v s) k = readReg s k := by
  unfold writeReg
  cases hn : regOf n with
  | none => rfl
  | some r =>
    unfold readReg
    cases hk : regOf k with
    | none => rfl
    | some r' =>
      have hreg : r' ≠ r := fun h => hne (by rw [← number_of_regOf hk, ← number_of_regOf hn, h])
      exact readNamed_writeNamed_ne hreg v s

/-- A register that stores a write reads it back, `PR_MASK` and `PR_DIR` their fields only (log 27). -/
theorem readReg_writeReg_same {n : Nat} (hn : n ∈ storedRegs) (v : Word) (s : State) : readReg (writeReg n v s) n = readBack n v := by
  fin_cases hn <;> rfl

/-- A register that stores a write makes no word wait. -/
theorem writeReg_ops {n : Nat} (hn : n ∈ storedRegs) (v : Word) (s : State) : (writeReg n v s).ops = s.ops := by
  fin_cases hn <;> rfl

/-- A register write reaches no latched or working register (10_state.md R57). -/
theorem writeReg_work (n : Nat) (v : Word) (s : State) :
    (writeReg n v s).owWork = s.owWork ∧ (writeReg n v s).jtWork = s.jtWork ∧ (writeReg n v s).uaWork = s.uaWork := by
  unfold writeReg
  split
  · rename_i r _
    cases r <;> exact ⟨rfl, rfl, rfl⟩
  · exact ⟨rfl, rfl, rfl⟩

/-- A read-only register ignores a write (46_host_commands.md R381). -/
theorem writeReg_of_readOnly {n : Nat} (hn : n ∈ readOnlyRegs) (v : Word) (s : State) : writeReg n v s = s := by
  fin_cases hn <;> rfl

/-- The profile image ignores a write (10_state.md R55). -/
theorem writeReg_of_profileReg {n : Nat} (hn : profileReg n) (v : Word) (s : State) : writeReg n v s = s := by
  obtain ⟨mode, w, k, hreg⟩ := regOf_of_profileReg hn
  simp only [writeReg, hreg, writeNamed]

/-- A hole ignores a write and reads 0 (10_state.md R51). -/
theorem hole_ignores {n : Nat} (hn : regOf n = none) (v : Word) (s : State) : writeReg n v s = s ∧ readReg s n = 0#64 := by
  simp only [writeReg, readReg, hn, and_self]

/-- Settles O50: the written number reads back, the others and the block behind the registers stand as they stood. -/
theorem registerWriteStoresAndFrames : Obligations.RegisterWriteStoresAndFrames := by
  intro s n v hn
  obtain ⟨hsamples, -, -⟩ := writeReg_captureKept n v s
  exact ⟨_, rfl, readReg_writeReg_same hn v s, fun k hk => readReg_writeReg_ne hk v s, hsamples, writeReg_out n v s,
    writeReg_ops hn v s, writeReg_work n v s⟩

/-- `BLK_STATUS` reads `CMD_INVALID` at bit 0 (10_state.md R41). -/
theorem readReg_blkStatus (s : State) : readReg s 0x06 = if s.cmdInvalid then 1#64 else 0#64 := by
  change (BitVec.ofBool s.cmdInvalid).setWidth 64 = _
  cases s.cmdInvalid <;> rfl

/-- Settles O51: the two special registers by computation, and each kind of number that ignores a write by its own lemma. -/
theorem specialRegistersAndHoles : Obligations.SpecialRegistersAndHoles := by
  intro s n v
  refine ⟨rfl, rfl, rfl, readReg_blkStatus s, fun hn => congrArg Host.Outcome.next ?_, fun hstored hread hprofile hblk hcmd => ?_⟩
  · rcases hn with hread | hprofile
    · exact writeReg_of_readOnly hread v s
    · exact writeReg_of_profileReg hprofile v s
  · obtain ⟨hwrite, hzero⟩ := hole_ignores (regOf_eq_none hstored hread hprofile hblk hcmd) v s
    exact ⟨congrArg Host.Outcome.next hwrite, hzero⟩

/-! ## Register reads (46_host_commands.md R381) -/

/-- The status word in plain arithmetic (10_state.md R49). -/
theorem Status.word_eq (st : Status) :
    st.word = natWord (st.state.code.toNat + 16 * st.code.code.toNat + 256 * st.cancelPending.toNat) := by
  obtain ⟨state, code, pending⟩ := st
  cases state <;> cases code <;> cases pending <;> rfl

/-- A number of the profile image names its window and bound (10_state.md R55). -/
theorem regOf_profile (mode : OwMode) {w k : Nat} (hw : w < 9) (hk : k < 2) :
    regOf (0x40 + 0x20 * (if mode = .overdrive then 1 else 0) + 2 * w + k) = some (.profile mode w k) := by
  have hmap : ∀ w < 9, ∀ k < 2, regOf (0x40 + 0x20 * (if mode = .overdrive then 1 else 0) + 2 * w + k) = some (.profile mode w k) := by
    cases mode <;> decide
  exact hmap w hw k hk

/-- Bound 0 of a window of a profile is its minimum, bound 1 its maximum (10_state.md R55). -/
theorem profileBound_eq {p : Profile} {w : Nat} {bounds : TimingWindow}
    (h : [p.a, p.b, p.c, p.d, p.e, p.g, p.h, p.i, p.j][w]? = some bounds) :
    profileBound p w 0 = bounds.min ∧ profileBound p w 1 = bounds.max := by
  have hw : w < 9 := (List.getElem?_eq_some_iff.1 h).1
  interval_cases w <;> exact Option.some.inj h ▸ ⟨rfl, rfl⟩

/-- The profile image reads the bounds of the mode's profile (10_state.md R55). -/
theorem readReg_profile (s : State) {mode : OwMode} {p : Profile} {w : Nat} {bounds : TimingWindow} (hp : p = Config.owProfile mode)
    (h : [p.a, p.b, p.c, p.d, p.e, p.g, p.h, p.i, p.j][w]? = some bounds) :
    readReg s (0x40 + 0x20 * (if mode = .overdrive then 1 else 0) + 2 * w) = natWord bounds.min
      ∧ readReg s (0x40 + 0x20 * (if mode = .overdrive then 1 else 0) + 2 * w + 1) = natWord bounds.max := by
  have hw : w < 9 := (List.getElem?_eq_some_iff.1 h).1
  obtain ⟨hmin, hmax⟩ := profileBound_eq h
  have hreg0 := regOf_profile mode hw (k := 0) (by decide)
  have hreg1 := regOf_profile mode hw (k := 1) (by decide)
  rw [Nat.add_zero] at hreg0
  simp only [readReg, hreg0, hreg1, readNamed, ← hp, hmin, hmax, and_self]

/-- Consuming takes the record at the head of the stream (46_host_commands.md R393). -/
theorem consumeRecord_of_cons {e : EngineId} {s : State} {r : Record} {rest : List Record} (h : (s.out e).stream = r :: rest) :
    consumeRecord e s = { s.setOut e { s.out e with stream := rest } with hostReply := r } := by
  simp only [consumeRecord, h]

/-- Consuming from an empty stream gives nothing (log 20). -/
theorem consumeRecord_of_nil {e : EngineId} {s : State} (h : (s.out e).stream = []) : consumeRecord e s = { s with hostReply := [] } := by
  simp only [consumeRecord, h]

/-- Settles O52: each register number computes to its register; the status word, the profile image and the stream by their lemmas. -/
theorem hostReadsAndConsumes : Obligations.HostReadsAndConsumes := by
  intro s e n
  refine ⟨rfl, rfl, ?_, fun r rest h => congrArg Host.Outcome.next (consumeRecord_of_cons h),
    fun h => congrArg Host.Outcome.next (consumeRecord_of_nil h), rfl, fun p hp => ?_, fun mode p w bounds => readReg_profile s⟩
  · cases e <;> exact Status.word_eq _
  · fin_cases hp <;> rfl

end Sys2Proof.Machine
end

section
/-!
PROOFS. Family 46_host_commands.md, the commands: a word written to `CMD` is carried out or flagged (R382, R392), and what START, CANCEL,
VALUE_AT, FIND_EDGE and RESET do as whole next states (R384 to R391).
-/

namespace Sys2Proof.Machine

/-! ## The front word (46_host_commands.md R381, R392) -/

/-- Settles O1: the word is the encoding of what it decodes to, and a formed word is carried out by the next step. -/
theorem stepRunsDecodedOperation : Obligations.StepRunsDecodedOperation := by
  intro s w rest i hops hdecode hwf
  have hencode : encode i = w := encodeInvertsDecode w i hdecode
  exact step_of_formed (hops.trans (by rw [hencode])) hwf

/-- The nine legal command words (46_host_commands.md R382, 30_encoding.md R113). -/
def legalCommands : List Word := [0x1#64, 0x101#64, 0x201#64, 0x2#64, 0x102#64, 0x202#64, 0x3#64, 0x4#64, 0x5#64]

/-- An operation whose encoding is a command word is one of the nine. -/
theorem mem_legalCommands_of_encode {i : Instr} {v : Word} (h : encode i = .cmd v) : v ∈ legalCommands := by
  cases i with
  | startOw | startJtag | startUart | cancelOw | cancelJtag | cancelUart | valueAt | findEdge | reset =>
    rw [← OpWord.cmd.inj h]
    decide
  | _ => cases h

/-- A command word that is none of the nine is read as no operation. -/
theorem readWord_of_illegal {v : Word} (h : v ∉ legalCommands) : readWord (.cmd v) = none := by
  by_contra hread
  obtain ⟨i, hi⟩ := Option.ne_none_iff_exists'.1 hread
  exact h (mem_legalCommands_of_encode (encodeInvertsDecode _ _ (readWord_eq_some.1 hi).1))

/-- A front word that is read as no operation is rejected by the next step. -/
theorem step_of_unread {s : State} {w : OpWord} {rest : List OpWord} (hops : s.ops = w :: rest) (hread : readWord w = none) :
    step s = rejectWord w { s with ops := rest } := by
  simp only [step, fetch, hops, hread]

/-! ## START and CANCEL (46_host_commands.md R384, R385, R387) -/

/-- A START of a RUNNING engine is ignored (46_host_commands.md R384). -/
theorem startEngine_of_running {e : EngineId} {s : State} (hr : (s.out e).status.state = .running) (ok : Bool) (k : State → Result) :
    startEngine e ok k s = .next s := by
  simp only [startEngine, State.running, hr, beq_self_eq_true, if_true]

/-- Settles O9: each START command is `startEngine` of its engine. -/
theorem startWhileRunningIsIgnored : Obligations.StartWhileRunningIsIgnored := fun _ =>
  ⟨fun hr => startEngine_of_running (e := .ow) hr _ _, fun hr => startEngine_of_running (e := .jtag) hr _ _,
    fun hr => startEngine_of_running (e := .uart) hr _ _⟩

/-- A START without `CFG_OK` writes the status register only (46_host_commands.md R385). -/
theorem startEngine_of_refused {e : EngineId} {s : State} (hidle : (s.out e).status.state ≠ .running) {ok : Bool} (hok : ¬ok = true)
    (k : State → Result) :
    startEngine e ok k s = .next (s.setOut e { s.out e with status := ⟨.failed, .cfgInvalid, false⟩ }) := by
  rcases startEngine_cases e ok k s with ⟨hr, -⟩ | ⟨-, -, heq⟩ | ⟨-, hyes, -⟩
  · exact absurd hr hidle
  · rw [heq, refuseStart_eq]
  · exact absurd hyes hok

/-- Settles O10: `CFG_OK` is the conditions of R385, and an accepted START is that of O11 to O13. -/
theorem startRefusedForIllegalConfiguration : Obligations.StartRefusedForIllegalConfiguration := by
  intro s
  refine ⟨fun hidle => ⟨fun hlegal => ?_, fun hlegal => ?_⟩, fun hidle => ⟨fun hlegal => ?_, fun hlegal => ?_⟩,
    fun hidle => ⟨fun hlegal => ?_, fun hlegal => ?_⟩⟩
  · exact startEngine_of_refused (e := .ow) hidle (mt (owConfigOk_iff s).1 hlegal) owStart
  · obtain ⟨w, hexec, -⟩ := acceptedOneWireStartLatches s hidle hlegal
    exact ⟨_, hexec, rfl⟩
  · exact startEngine_of_refused (e := .jtag) hidle (mt (jtConfigOk_iff s).1 hlegal) jtStart
  · obtain ⟨w, hexec, -⟩ := acceptedJtagStartLatches s hidle hlegal
    exact ⟨_, hexec, rfl⟩
  · exact startEngine_of_refused (e := .uart) hidle (mt (uaConfigOk_iff s).1 hlegal) uaStart
  · obtain ⟨w, pc, hexec, -⟩ := acceptedUartStartLatches s hidle hlegal
    exact ⟨_, hexec, rfl⟩

/-- CANCEL raises the pending bit of a RUNNING engine and leaves any other as it is (46_host_commands.md R387). -/
theorem cancelEngine_eq_ite (e : EngineId) (s : State) :
    cancelEngine e s = if (s.out e).status.state = .running then
      s.setOut e { s.out e with status := { (s.out e).status with cancelPending := true } } else s := by
  rcases cancelEngine_cases e s with ⟨hr, heq⟩ | ⟨hr, heq⟩
  · rw [heq, if_pos hr]
  · rw [heq, if_neg hr]

/-- Settles O14: the three words by computation, and CANCEL of each engine by `cancelEngine_eq_ite`. -/
theorem cancelSetsPendingWhileRunning : Obligations.CancelSetsPendingWhileRunning := fun s =>
  ⟨rfl, rfl, rfl, congrArg Host.Outcome.next (cancelEngine_eq_ite .ow s), congrArg Host.Outcome.next (cancelEngine_eq_ite .jtag s),
    congrArg Host.Outcome.next (cancelEngine_eq_ite .uart s)⟩

/-! ## The sticky bit (60_exceptions.md R406) -/

theorem cancelEngine_cmdInvalid (e : EngineId) (s : State) : (cancelEngine e s).cmdInvalid = s.cmdInvalid := by
  rw [cancelEngine_eq_ite]
  split_ifs
  · exact setOut_cmdInvalid e s _
  · rfl

theorem storeAnswer_cmdInvalid (r : Option Hit) (s : State) : (storeAnswer r s).cmdInvalid = s.cmdInvalid := by cases r <;> rfl

/-- A turn of an engine does not write the sticky bit. -/
theorem engineTurn_cmdInvalid {e : EngineId} {s t : State} (h : engineTurn e s = .next t) : t.cmdInvalid = s.cmdInvalid := by
  obtain ⟨-, ⟨-, -, -, hsticky, -⟩, -, -⟩ := engineTurn_writes h
  exact hsticky

/-- A rejected word that does not stop the block is a command, and sets the sticky bit (46_host_commands.md R392). -/
theorem rejectWord_cmdInvalid {w : OpWord} {s t : State} (h : rejectWord w s = .next t) : t.cmdInvalid = true := by
  cases w with
  | cmd v => exact Host.Outcome.next.inj h ▸ rfl
  | record | tap | cls => cases h

/-- A START writes the sticky bit only if its START step does. -/
theorem startEngine_cmdInvalid {e : EngineId} {ok : Bool} {k : State → Result} {s t : State}
    (hk : ∀ {u}, k (acceptStart e s) = .next u → u.cmdInvalid = (acceptStart e s).cmdInvalid) (h : startEngine e ok k s = .next t) :
    t.cmdInvalid = s.cmdInvalid := by
  rcases startEngine_cases e ok k s with ⟨-, heq⟩ | ⟨-, -, heq⟩ | ⟨-, -, heq⟩ <;> rw [heq] at h
  · injection h with h
    rw [h]
  · injection h with h
    rw [← h, refuseStart_eq, setOut_cmdInvalid]
  · exact (hk h).trans (setOut_cmdInvalid e s _)

/-- No operation but RESET writes the sticky bit. -/
theorem exec_cmdInvalid {i : Instr} (hwf : i.wf = true) (hreset : i ≠ .reset) {s t : State} (h : exec i s = .next t) :
    t.cmdInvalid = s.cmdInvalid := by
  have houtput : ∀ {e o}, Host.Outcome.next (s.setOut e o) = exec i s → t.cmdInvalid = s.cmdInvalid := fun {e o} heq => by
    rw [← Host.Outcome.next.inj (heq.trans h), setOut_cmdInvalid]
  cases i with
  | reset => exact absurd rfl hreset
  | startOw =>
    refine startEngine_cmdInvalid (fun hu => ?_) h
    obtain ⟨w, pc, formed, rfl⟩ := owStart_writes hu
    rfl
  | startJtag =>
    refine startEngine_cmdInvalid (fun hu => ?_) h
    obtain ⟨w, pc, formed, rfl⟩ := jtStart_writes hu
    rfl
  | startUart =>
    refine startEngine_cmdInvalid (fun hu => ?_) h
    obtain ⟨w, pc, formed, rfl⟩ := uaStart_writes hu
    rfl
  | cancelOw | cancelJtag | cancelUart => exact Host.Outcome.next.inj h ▸ cancelEngine_cmdInvalid _ s
  | valueAt | findEdge => exact Host.Outcome.next.inj h ▸ storeAnswer_cmdInvalid _ s
  | clear chan => exact houtput rfl
  | progress percent => exact houtput (congrArg Host.Outcome.next (emitProgress_eq s.cur percent _ s).symm)
  | endRun st code sym err =>
    obtain ⟨rs, fc, hst, hcode, -⟩ := endRun_codes hwf
    simp only [exec, execEndRun, hst, hcode, takeEnd_eq] at houtput
    exact houtput rfl
  | owReset | owByte | owBusError | jtState | jtShiftTdi | jtShiftTdo | uaDataRx | uaDataTx | uaEvent => exact houtput rfl
  -- a TAP row writes the TAP state, a pulse class the next step of the 1-Wire engine
  | _ => exact Host.Outcome.next.inj h ▸ rfl

/-- The only register write that clears the sticky bit is a 1 in bit 0 of `BLK_STATUS` (46_host_commands.md R381). -/
theorem writeReg_cmdInvalid {n : Nat} {v : Word} {s : State} (hs : s.cmdInvalid = true) :
    (writeReg n v s).cmdInvalid = true ∨ n = 0x06 ∧ v.getLsbD 0 = true := by
  unfold writeReg
  cases hn : regOf n with
  | none => exact .inl hs
  | some r =>
    cases r with
    | blkStatus =>
      have hnumber : n = 0x06 := (number_of_regOf hn).symm
      cases hv : v.getLsbD 0 with
      | false => exact .inl (by simp only [writeNamed, hs, hv]; rfl)
      | true => exact .inr ⟨hnumber, rfl⟩
    | _ => exact .inl hs

/-- The outside actions that clear the sticky bit: the reset input and that write (46_host_commands.md R391, R381). -/
theorem act_cmdInvalid {a : HostAct} {s t : State} (hs : s.cmdInvalid = true) (h : act a s = .next t) :
    t.cmdInvalid = true ∨ a = .resetInput ∨ ∃ v, a = .writeReg 0x06 v ∧ v.getLsbD 0 = true := by
  cases a with
  | readReg | readResult => exact .inl (Host.Outcome.next.inj h ▸ hs)
  | resetInput => exact .inr (.inl rfl)
  | writeReg n v =>
    rcases writeReg_cmdInvalid (n := n) (v := v) hs with hkept | ⟨rfl, hv⟩
    · exact .inl (Host.Outcome.next.inj h ▸ hkept)
    · exact .inr (.inr ⟨v, rfl, hv⟩)
  | consume e =>
    refine .inl (Host.Outcome.next.inj h ▸ ?_)
    rcases consumeRecord_cases e s with ⟨-, heq⟩ | ⟨r, rest, -, heq⟩ <;> rw [heq]
    · exact hs
    · exact (setOut_cmdInvalid e s _).trans hs
  | capture m r g =>
    rw [act] at h
    rcases loadCapture_cases m r g s with ⟨-, heq⟩ | ⟨-, heq⟩ <;> rw [heq] at h
    · exact .inl (Host.Outcome.next.inj h ▸ hs)
    · cases h
  | turn e => exact .inl ((engineTurn_cmdInvalid h).trans hs)

/-- A front word that is read as RESET is the command word of RESET. -/
theorem eq_of_readWord_reset {w : OpWord} (h : readWord w = some .reset) : w = .cmd 0x5#64 :=
  (encodeInvertsDecode w .reset (readWord_eq_some.1 h).1).symm

/-- Settles O8: a word that is none of the nine is read as no operation and flagged; the three ways out are RESET among the
operations and two of the outside actions. -/
theorem illegalCommandOnlySetsStickyBit : Obligations.IllegalCommandOnlySetsStickyBit := by
  refine ⟨fun s v rest hops hillegal => step_of_unread hops (readWord_of_illegal hillegal), fun s t hs ht => ?_⟩
  rcases step_cases s with ⟨w, rest, i, hops, hread, heq⟩ | ⟨w, rest, -, -, heq⟩ | ⟨a, rest, hops, hin, heq⟩ | ⟨e, k, -, -, heq⟩ |
    ⟨-, -, heq⟩ <;> rw [heq] at ht
  · by_cases hreset : i = .reset
    · subst hreset
      exact .inr (.inl ⟨rest, hops.trans (by rw [eq_of_readWord_reset hread])⟩)
    · exact .inl ((exec_cmdInvalid (readWord_eq_some.1 hread).2 hreset ht).trans hs)
  · exact .inl (rejectWord_cmdInvalid ht)
  · rcases act_cmdInvalid (s := { s with inbox := rest }) hs ht with hkept | rfl | ⟨v, rfl, hv⟩
    · exact .inl hkept
    · exact .inr (.inr (.inl ⟨hops, rest, hin⟩))
    · exact .inr (.inr (.inr ⟨hops, v, rest, hin, hv⟩))
  · exact .inl ((engineTurn_cmdInvalid ht).trans hs)
  · exact .inl (Host.Outcome.next.inj ht ▸ hs)

/-! ## VALUE_AT and FIND_EDGE (46_host_commands.md R389, R390) -/

/-- The answer of a scanner command that found entry `i`, as R389 and R390 write it. -/
theorem storeAnswer_some (i : Nat) (x : Sample) (s : State) :
    storeAnswer (some ⟨i, x.ts, x.val⟩) s = { s with
      prResIdx := natWord i, prResTs := x.ts, prResVal := BitVec.ofNat 64 x.val.toNat, prStat := 1#64 } := by
  simp only [storeAnswer, BitVec.ofNat_toNat]

/-- Settles O15: which entry VALUE_AT answers, and whether it answers one. -/
theorem valueAtCommandStoresHeldEntry : Obligations.ValueAtCommandStoresHeldEntry := by
  intro s
  have hexec : ∀ {r}, valueAt s.samples s.prT0.toInt = r → exec .valueAt s = .next (storeAnswer r s) := fun hr =>
    congrArg (fun r => Host.Outcome.next (storeAnswer r s)) hr
  refine ⟨rfl, fun hbefore => hexec (r := none) ((valueAt_eq_none _ _).2 fun x hx => ?_), fun ⟨x0, hx0, hle⟩ => ?_⟩
  · rcases hbefore with hempty | ⟨y, hy, hlt⟩
    · simp [hempty] at hx
    · rwa [← Option.some.inj (hy.symm.trans hx)]
  · cases hv : valueAt s.samples s.prT0.toInt with
    | none =>
      have hlt := (valueAt_eq_none _ _).1 hv x0 hx0
      omega
    | some a =>
      obtain ⟨-, hheld⟩ := (valueAt_eq_some _ _ a).1 hv
      refine ⟨a.idx, ⟨a.ts, a.val⟩, hheld, (hexec hv).trans ?_⟩
      exact congrArg Host.Outcome.next (storeAnswer_some a.idx ⟨a.ts, a.val⟩ s)

/-- The direction of `PR_DIR` bit 0 in plain arithmetic (10_state.md R42). -/
theorem dirOf_eq (w : Word) : dirOf w = if w.toNat % 2 = 0 then .rising else .falling := by
  have hbit : w.getLsbD 0 = decide (w.toNat % 2 = 1) := Nat.testBit_zero w.toNat
  unfold dirOf
  rw [hbit]
  split_ifs with hodd heven heven
  · simp [heven] at hodd
  · rfl
  · rfl
  · simp only [decide_eq_true_eq] at hodd
    omega

/-- Settles O16: which entry FIND_EDGE answers, and whether it answers one. -/
theorem findEdgeCommandStoresFirstEdge : Obligations.FindEdgeCommandStoresFirstEdge := by
  intro s mask dir hmask hdir
  have hexec : ∀ {r}, findEdge s.samples s.prT0.toInt s.prT1.toInt mask dir = r → exec .findEdge s = .next (storeAnswer r s) := by
    intro r hr
    rw [exec, execFindEdge, dirOf_eq, ← hdir, ← BitVec.ofNat_toNat, ← hmask, hr]
  refine ⟨rfl, fun hnone => hexec (r := none) ((findEdge_eq_none _ _ _ _ _).2 hnone), fun i x hedge hleast => ?_⟩
  have hfound := (findEdge_eq_some _ _ _ _ _ ⟨i, x.ts, x.val⟩).2 ⟨hedge, fun j hj y => hleast j y hj⟩
  exact (hexec hfound).trans (congrArg Host.Outcome.next (storeAnswer_some i x s))

/-! ## RESET (46_host_commands.md R391) -/

/-- The registers that keep their value over a reset: the capture's, which the state holds, and the profile image. -/
theorem readReg_blockReset_kept {n : Nat} (hn : keptByReset n = true) (s : State) : readReg (blockReset s) n = readReg s n := by
  simp only [keptByReset, Bool.or_eq_true, Bool.and_eq_true, decide_eq_true_eq, or_assoc] at hn
  rcases hn with hcapture | hprofile
  · interval_cases n <;> rfl
  · obtain ⟨mode, w, k, hreg⟩ := regOf_of_profileReg hprofile
    simp only [readReg, hreg, readNamed]

/-- Every other register reads after a reset what it reads in the state after power-on. -/
theorem readReg_blockReset {n : Nat} (hn : keptByReset n = false) (s : State) : readReg (blockReset s) n = resetWord n := by
  rw [← resetStateReadsResetValues.1 n hn, readReg, readReg]
  cases hreg : regOf n with
  | none => rfl
  | some r =>
    have hnumber := number_of_regOf hreg
    cases r with
    | sbCount | sbRate | sbTrig =>
      rw [← hnumber] at hn
      exact absurd hn (by decide)
    | status e | progress e | symcnt e | errcnt e => simp only [readNamed, blockReset_out, out_reset]
    | _ => rfl

/-- Settles O17: RESET and the reset input are the block reset. -/
theorem resetCommandRestoresBlock : Obligations.ResetCommandRestoresBlock := fun s =>
  ⟨rfl, blockReset s, rfl, rfl, rfl, fun _ hn => readReg_blockReset_kept hn s, fun _ hn => readReg_blockReset hn s,
    fun e => by rw [blockReset_out]; exact ⟨rfl, rfl, rfl⟩, rfl⟩

end Sys2Proof.Machine
end

section
/-!
PROOFS. Family 60_exceptions.md: cancellation at a check point (R410) and the END step it leads to (R412).
-/

namespace Sys2Proof.Machine

/-- The engine's next step is its END step with CANCELLED (60_exceptions.md R412). -/
def atCancelled (e : EngineId) (s : State) : Prop :=
  match e with
  | .ow => s.owPc = .cancelled
  | .jtag => s.jtPc = .cancelled
  | .uart => s.uaPc = .cancelled

/-! ## The check points with CANCEL pending (60_exceptions.md R410) -/

/-- OW.LOOP with CANCEL pending, before the cursor is looked at (42_onewire.md R193). -/
theorem owLoop_of_pending {s : State} (hpending : s.owOut.status.cancelPending = true) :
    owLoop s = .next { s with owPc := .cancelled } := if_pos hpending

/-- JTAG.SCAN with CANCEL pending, before the next clock edge is looked for (43_jtag_tap.md R252). -/
theorem jtScan_of_pending {s : State} (hpending : s.jtOut.status.cancelPending = true) :
    jtScan s = .next { s with jtPc := .cancelled } := if_pos hpending

/-- UART.LANE with CANCEL pending, before the cursor is looked at (44_uart.md R293). -/
theorem uaLane_of_pending {s : State} (hpending : s.uaOut.status.cancelPending = true) :
    uaLane s = .next { s with uaPc := .cancelled } := if_pos hpending

/-- UART.HS with CANCEL pending, before the next change of the line is looked for (44_uart.md R306). -/
theorem uaHs_of_pending {s : State} (hpending : s.uaOut.status.cancelPending = true) :
    uaHs s = .next { s with uaPc := .cancelled } := if_pos hpending

/-- A check point with CANCEL pending goes to the END step and forms nothing (60_exceptions.md R410). -/
theorem engineTurn_of_pendingCancel {e : EngineId} {s : State} (hr : (s.out e).status.state = .running)
    (hpending : (s.out e).status.cancelPending = true) (hcheck : atCheckPoint e s) :
    ∃ t, engineTurn e s = .next t ∧ atCancelled e t ∧ t.ops = s.ops := by
  cases e with
  | ow =>
    have hpc : s.owPc = .loop := hcheck
    refine ⟨{ s with cur := .ow, owPc := .cancelled }, ?_, rfl, rfl⟩
    rw [engineTurn_ow hr, owStep, hpc]
    exact owLoop_of_pending hpending
  | jtag =>
    have hpc : s.jtPc = .scan := hcheck
    refine ⟨{ s with cur := .jtag, jtPc := .cancelled }, ?_, rfl, rfl⟩
    rw [engineTurn_jtag hr, jtStep, hpc]
    exact jtScan_of_pending hpending
  | uart =>
    refine ⟨{ s with cur := .uart, uaPc := .cancelled }, ?_, rfl, rfl⟩
    rw [engineTurn_uart hr, uaStep]
    rcases (show s.uaPc = .lane ∨ s.uaPc = .hs from hcheck) with hpc | hpc <;> rw [hpc]
    · exact uaLane_of_pending hpending
    · exact uaHs_of_pending hpending

/-! ## The END step of a cancelled run (60_exceptions.md R412) -/

/-- The END step with CANCELLED forms END with the counters and no PROGRESS before it (45_emitter.md R348, 60_exceptions.md R412). -/
theorem engineTurn_of_atCancelled {e : EngineId} {s : State} (hr : (s.out e).status.state = .running) (hcancelled : atCancelled e s) :
    ∃ t, engineTurn e s = .next t ∧ t.cur = e
      ∧ t.ops = encode (.endRun RunState.cancelled.code FailCode.none.code (s.out e).symcnt (s.out e).errcnt) :: s.ops := by
  cases e with
  | ow => exact ⟨_, by rw [engineTurn_ow hr, owStep, show s.owPc = .cancelled from hcancelled], rfl, rfl⟩
  | jtag => exact ⟨_, by rw [engineTurn_jtag hr, jtStep, show s.jtPc = .cancelled from hcancelled], rfl, rfl⟩
  | uart => exact ⟨_, by rw [engineTurn_uart hr, uaStep, show s.uaPc = .cancelled from hcancelled], rfl, rfl⟩

/-- Settles O37: the check point goes to the END step, the END step forms the END record, and the step after it carries that record out.
Neither turn writes an output side, so the record holds the counters as they stood at the check point. -/
theorem pendingCancelEndsRunAtCheckPoint : Obligations.PendingCancelEndsRunAtCheckPoint := by
  intro s e hr hpending hcheck hnone
  obtain ⟨t, ht, hcancelled, htops⟩ := engineTurn_of_pendingCancel hr hpending hcheck
  obtain ⟨htothers, hthost, htout, -⟩ := engineTurn_writes ht
  obtain ⟨u, hu, hcur, huops⟩ := engineTurn_of_atCancelled (htout e ▸ hr) hcancelled
  obtain ⟨huothers, huhost, huout, -⟩ := engineTurn_writes hu
  have hstart : t.ops = [] := htops.trans hnone
  refine ⟨t, u, _, ht, hu, step_of_endRun hcur huops rfl rfl, hstart, ?_, ?_, ?_, ?_⟩
  · rw [afterFront_ops, hstart]
  · simp only [afterFront_out, huout, htout]
    rfl
  · exact (htothers.trans huothers).trans (othersKept_afterFront _ _ _ _)
  · exact (hthost.trans huhost).trans (hostSideKept_afterFront _ _ _ _)

end Sys2Proof.Machine
end
